-- ==== Sys2Proof/Word.lean ====
section
/-! DEFINITION. The words of PF-SPI-TXE: a byte (00_scope.md R8) and the 24-bit header word (30_encoding.md R102). -/

namespace Sys2Proof

/-- A byte, bit 7 the most significant, unsigned (00_scope.md R8). -/
abbrev Byte := BitVec 8

/-- The header as one word `H = (byte0 << 16) | (byte1 << 8) | byte2`, a notation (30_encoding.md R102). -/
abbrev HeaderWord := BitVec 24

end Sys2Proof
end

