-- ==== Sys2Proof/Config.lean ====
section
/-! DEFINITION. The implementation parameters of 00_scope.md R5 and the free values: what the spec leaves open. -/

namespace Sys2Proof

/-- What the encoder does with an address above 0x7F (30_encoding.md R94; conflict C2). -/
inductive AddrOverflow where
  | reject
  | mask
  deriving DecidableEq, Repr

/-- The parameters a model takes as arguments (00_scope.md R5), with the bounds of R6 carried along.
Seen as registers they are read-only (10_state.md R38). `mux_code` and `tgt_code` are `muxCode` and `tgtCode`. -/
structure Params where
  /-- `C` (`CHUNK_MAX`): the most data bytes one transaction carries. -/
  chunkMax : Nat
  /-- `S` (`BURST_ADDR_STRIDE`): what each chunk adds to the address. -/
  stride : Nat
  /-- `DIR_WRITE`: the direction bit of a write header; a read header has the other value. -/
  dirWrite : Bool
  /-- `ADDR_OVERFLOW`. -/
  addrOverflow : AddrOverflow
  chunkMax_pos : 1 ≤ chunkMax
  chunkMax_le : chunkMax ≤ 2499
  deriving DecidableEq, Repr

/-- `C - 1`, uninterpreted: 00_scope.md R5 keeps `C` OPEN (decision D3), so no proof sees its value; the type says
`1 <= C <= 2499` (R6). Log entry 6. -/
opaque Config.chunkMaxPred : Fin 2499

/-- `S`, uninterpreted: 00_scope.md R5 keeps it OPEN (decision D4). Log entry 6. -/
opaque Config.burstAddrStride : Nat

/-- The configured values of the machine at reset: `C` and `S` open, `DIR_WRITE = 1` and `ADDR_OVERFLOW = REJECT`, the
values 00_scope.md R5 gives (D1, D2). A claim about another configuration is about a state with another `cfg`. -/
def Config.params : Params where
  chunkMax := Config.chunkMaxPred.val + 1
  stride := Config.burstAddrStride
  dirWrite := true
  addrOverflow := .reject
  chunkMax_pos := Nat.le_add_left 1 _
  chunkMax_le := Config.chunkMaxPred.isLt

/-- `N_MAX`: no bound on a burst's length (00_scope.md R5, decision D17); no rule uses one. -/
def Config.lengthBound : Option Nat := none

/-- `RX_FILL`: what the block sends while it receives (00_scope.md R5, 20_memory.md R67); not part of `tx` and not
observable at the level of the spec. -/
def Config.rxFill : Byte := 0x00#8

/-- FREE VALUE: whether the device is available at the `i`-th draw (43_session.md R170, U16). Log entry 3. -/
opaque Config.freeAvail : Nat → Bool

/-- FREE VALUE: whether the environment fails the transaction of the `i`-th draw (20_memory.md R56, U8). Log entry 3. -/
opaque Config.freeFail : Nat → Bool

/-- FREE VALUE: the byte of index `j` the environment returns at the `i`-th draw (U9). Log entry 3. -/
opaque Config.freeByte : Nat → Nat → Byte

/-- FREE VALUE: what `RDATA` holds after a command that failed (10_state.md R33, U11), at the `i`-th draw and given what it
held, so that an unchanged register is one of the possibilities. Log entry 5. -/
opaque Config.freeRdata : Nat → Byte → Byte

/-- FREE VALUE: what `RBUF` holds after a command that failed with a status other than `NotOpen` (10_state.md R33, U11),
likewise. Log entry 5. -/
opaque Config.freeRbuf : Nat → List Byte → List Byte

end Sys2Proof
end

