-- ==== Sys2Proof/Syntax.lean ====
section
/-! DEFINITION. The operations of PF-SPI-TXE (one constructor per row of spec/opcode_table.json) and the two forms of word
that spell them: the host command record (30_encoding.md R91) and the header word (R102). -/

namespace Sys2Proof

/-- The direction of a transfer (00_scope.md, glossary; 30_encoding.md R83). -/
inductive Direction where
  | read
  | write
  deriving DecidableEq, Repr

/-- The six host commands as values of `CMD_OP` (10_state.md R21). -/
inductive Op where
  | openBus
  | closeBus
  | writeByte
  | readByte
  | writeBurst
  | readBurst
  deriving DecidableEq, Repr

/-- The operations, one constructor per row of the opcode table, with the operands of 30_encoding.md R91 and
40_header_encoder.md R110. -/
inductive Instr where
  /-- `open()` (43_session.md R170). -/
  | openBus
  /-- `close()` (43_session.md R171). -/
  | closeBus
  /-- `write_byte(mux_mode, target, address, value)` (41_single_transfer.md R121). -/
  | writeByte (mux target address value : Byte)
  /-- `read_byte(mux_mode, target, address)` (41_single_transfer.md R122). -/
  | readByte (mux target address : Byte)
  /-- `write_burst(mux_mode, target, address, buffer)` (42_burst.md R144). -/
  | writeBurst (mux target address : Byte) (buffer : List Byte)
  /-- `read_burst(mux_mode, target, address, length)` (42_burst.md R145). -/
  | readBurst (mux target address : Byte) (length : Nat)
  /-- `ENCODE_HEADER(mux_mode, target, address, WRITE)`, internal (40_header_encoder.md R110). -/
  | encodeHeaderW (mux target : Byte) (address : Nat)
  /-- `ENCODE_HEADER(mux_mode, target, address, READ)`, internal (40_header_encoder.md R110). -/
  | encodeHeaderR (mux target : Byte) (address : Nat)
  deriving DecidableEq, Repr

/-! ## Kinds of operation -/

/-- The four transfer operations (43_session.md, 41_single_transfer.md, 42_burst.md). -/
def Instr.isTransfer : Instr → Bool
  | .openBus => false
  | .closeBus => false
  | .writeByte _ _ _ _ => true
  | .readByte _ _ _ => true
  | .writeBurst _ _ _ _ => true
  | .readBurst _ _ _ _ => true
  | .encodeHeaderW _ _ _ => false
  | .encodeHeaderR _ _ _ => false

/-- The same of a value of `CMD_OP`. -/
def Op.isTransfer : Op → Bool
  | .openBus => false
  | .closeBus => false
  | .writeByte => true
  | .readByte => true
  | .writeBurst => true
  | .readBurst => true

/-- The six host commands; `ENCODE_HEADER` is not one (40_header_encoder.md). -/
def Instr.isCommand : Instr → Bool
  | .openBus => true
  | .closeBus => true
  | .writeByte _ _ _ _ => true
  | .readByte _ _ _ => true
  | .writeBurst _ _ _ _ => true
  | .readBurst _ _ _ _ => true
  | .encodeHeaderW _ _ _ => false
  | .encodeHeaderR _ _ _ => false

/-! ## The words -/

/-- The host command record (30_encoding.md R91, R92). A field an operation does not use is ignored by it; the length of a
`WRITE_BURST` is that of its buffer. -/
structure CommandRecord where
  op : Byte
  mux : Byte
  target : Byte
  address : Byte
  value : Byte
  length : Nat
  buffer : List Byte
  deriving DecidableEq, Repr

/-- What stands at the block's input: a host command record, or (for the two rows of the opcode table that are no host
commands) a call of the internal encoder spelled by the header word it is to produce. Log entry 10. -/
inductive Request where
  | command (r : CommandRecord)
  | header (h : HeaderWord)
  deriving DecidableEq, Repr

end Sys2Proof
end

