-- ==== Sys2Proof/WellFormed.lean ====
section
/-! DEFINITION. Well-formed operations: those that some word spells. -/

namespace Sys2Proof

/-- The representable range 0x00 to 0x7F of an address in a header (30_encoding.md R94; the same for every mode, target and
direction, 40_header_encoder.md R113). -/
def addressRepresentable (address : Nat) : Bool := decide (address ≤ 0x7F)

/-- An operation is well formed when a word spells it. Every host command is: each 8-bit operand is legal as an operand
(an address above 0x7F is answered with a status, 30_encoding.md R96), each length is (20_memory.md R55), and a reserved
operation code cannot be written in the type (R97). A header word holds 7 address bits (R83), so the two header rows are
well formed only within the representable range. -/
def Instr.wf : Instr → Bool
  | .openBus => true
  | .closeBus => true
  | .writeByte _ _ _ _ => true
  | .readByte _ _ _ => true
  | .writeBurst _ _ _ _ => true
  | .readBurst _ _ _ _ => true
  | .encodeHeaderW _ _ address => addressRepresentable address
  | .encodeHeaderR _ _ address => addressRepresentable address

end Sys2Proof
end

