-- ==== Sys2Proof/Decode.lean ====
section
/-! DEFINITION. Decoding: a request to an operation or a rejection by name, total; then the encoder, from the same tables
(30_encoding.md R80 to R83, R90 to R92, R102); then the opcode table's numbering of a word. -/

namespace Sys2Proof

/-! ## The fields of a header -/

/-- `mux_code`, header byte 0 of a mode: the identity on 8 bits (30_encoding.md R81, decision D5). -/
def muxCode (mux : Byte) : Byte := mux

/-- `tgt_code`, header byte 1 of a target: the identity on 8 bits (30_encoding.md R82, decision D5). -/
def tgtCode (target : Byte) : Byte := target

/-- `DIR` of a direction: `DIR_WRITE` for a write, `1 - DIR_WRITE` for a read (30_encoding.md R83). -/
def dirBit (dirWrite : Bool) : Direction → Bool
  | .write => dirWrite
  | .read => !dirWrite

/-- The direction a direction bit stands for (30_encoding.md R90). -/
def dirOfBit (dirWrite bit : Bool) : Direction := if bit = dirWrite then .write else .read

/-- Header byte 2, `(DIR << 7) | ADDR7` (30_encoding.md R83). -/
def headerByte2 (dir : Bool) (addr7 : BitVec 7) : Byte :=
  ((BitVec.ofBool dir).setWidth 8 <<< 7) ||| addr7.setWidth 8

/-- `H = (byte0 << 16) | (byte1 << 8) | byte2` (30_encoding.md R102). -/
def headerWord (b0 b1 b2 : Byte) : HeaderWord :=
  (b0.setWidth 24 <<< 16) ||| (b1.setWidth 24 <<< 8) ||| b2.setWidth 24

/-- `byte0`, `H[23:16]`. -/
def headerB0 (h : HeaderWord) : Byte := h.extractLsb' 16 8

/-- `byte1`, `H[15:8]`. -/
def headerB1 (h : HeaderWord) : Byte := h.extractLsb' 8 8

/-- `byte2`, `H[7:0]`. -/
def headerB2 (h : HeaderWord) : Byte := h.extractLsb' 0 8

/-- `DIR = byte2[7]` (30_encoding.md R90). -/
def byte2Dir (b2 : Byte) : Bool := b2.getLsbD 7

/-- `ADDR7 = byte2[6:0]` (30_encoding.md R90). -/
def byte2Addr (b2 : Byte) : BitVec 7 := b2.extractLsb' 0 7

/-! ## Decoding -/

/-- Why a request spells no operation. -/
inductive DecodeError where
  /-- an operation code of the reserved range 0x06 to 0xFF (30_encoding.md R97). -/
  | reservedOp (op : Byte)
  deriving DecidableEq, Repr

/-- The operation a command record spells; fields it does not use are ignored (30_encoding.md R91, R92). -/
def decodeCommand (r : CommandRecord) : Except DecodeError Instr :=
  match r.op.toNat with
  | 0 => .ok .openBus
  | 1 => .ok .closeBus
  | 2 => .ok (.writeByte r.mux r.target r.address r.value)
  | 3 => .ok (.readByte r.mux r.target r.address)
  | 4 => .ok (.writeBurst r.mux r.target r.address r.buffer)
  | 5 => .ok (.readBurst r.mux r.target r.address r.length)
  | _ => .error (.reservedOp r.op)

/-- The encoder call a header word spells: every 24-bit value is the header of exactly one (mode, target, direction,
address) (30_encoding.md R90). The operand is recovered through the inverse of `mux_code` and `tgt_code`, the identity. -/
def decodeHeader (dirWrite : Bool) (h : HeaderWord) : Instr :=
  match dirOfBit dirWrite (byte2Dir (headerB2 h)) with
  | .write => .encodeHeaderW (headerB0 h) (headerB1 h) (byte2Addr (headerB2 h)).toNat
  | .read => .encodeHeaderR (headerB0 h) (headerB1 h) (byte2Addr (headerB2 h)).toNat

/-- Decoding is total: an operation, or a rejection that names the reserved code. `dirWrite` is the parameter `DIR_WRITE`,
which fixes what bit 7 of a header means. -/
def decode (dirWrite : Bool) : Request → Except DecodeError Instr
  | .command r => decodeCommand r
  | .header h => .ok (decodeHeader dirWrite h)

/-! ## Encoding -/

/-- The operation codes (30_encoding.md R92). -/
def Op.code : Op → Byte
  | .openBus => 0x00#8
  | .closeBus => 0x01#8
  | .writeByte => 0x02#8
  | .readByte => 0x03#8
  | .writeBurst => 0x04#8
  | .readBurst => 0x05#8

/-- The record with an operation code and nothing else; the fields an operation does not use are zero. -/
def bareCommand (op : Op) : CommandRecord :=
  { op := op.code, mux := 0#8, target := 0#8, address := 0#8, value := 0#8, length := 0, buffer := [] }

/-- The header word of an encoder call, the address taken to 7 bits (30_encoding.md R80 to R83, R102). -/
def encodeCall (dirWrite : Bool) (dir : Direction) (mux target : Byte) (address : Nat) : HeaderWord :=
  headerWord (muxCode mux) (tgtCode target) (headerByte2 (dirBit dirWrite dir) (BitVec.ofNat 7 address))

/-- The request that spells a well-formed operation (30_encoding.md R91, R92 for commands; R80 for headers). -/
def encode (dirWrite : Bool) : Instr → Request
  | .openBus => .command (bareCommand .openBus)
  | .closeBus => .command (bareCommand .closeBus)
  | .writeByte m t a v =>
      .command { bareCommand .writeByte with mux := m, target := t, address := a, value := v }
  | .readByte m t a => .command { bareCommand .readByte with mux := m, target := t, address := a }
  | .writeBurst m t a buf =>
      .command { bareCommand .writeBurst with
        mux := m, target := t, address := a, length := buf.length, buffer := buf }
  | .readBurst m t a n =>
      .command { bareCommand .readBurst with mux := m, target := t, address := a, length := n }
  | .encodeHeaderW m t a => .header (encodeCall dirWrite .write m t a)
  | .encodeHeaderR m t a => .header (encodeCall dirWrite .read m t a)

/-! ## The opcode table's words -/

/-- The command record of a table word: `op` in bits 7:0 as the table says, and after it one byte per field in the order of
30_encoding.md R91 (the table gives these no bits, so in its words they are zero); an empty buffer. Log entry 11. -/
def tableCommand (w : Nat) : CommandRecord where
  op := BitVec.ofNat 8 w
  mux := BitVec.ofNat 8 (w / 2 ^ 8)
  target := BitVec.ofNat 8 (w / 2 ^ 16)
  address := BitVec.ofNat 8 (w / 2 ^ 24)
  value := BitVec.ofNat 8 (w / 2 ^ 32)
  length := w / 2 ^ 40
  buffer := []

/-- The request a word of the opcode table stands for. The table holds two formats, `CMD` (8 bits) and `HDR` (24 bits), and
no bit of a word tells them apart: a word given with 24 bits is a header word, any other a command record, whatever its
operation code, so that a reserved code is refused (30_encoding.md R97). Log entry 11. -/
def tableRequest (nbits w : Nat) : Request :=
  if nbits = 24 then .header (BitVec.ofNat 24 w) else .command (tableCommand w)

/-- The operation the decoder reads from a word of the opcode table, whose header rows are written with `DIR_WRITE = 1`. -/
def decodeTableWord (nbits w : Nat) : Option Instr :=
  match decode true (tableRequest nbits w) with
  | .ok i => some i
  | .error _ => none

end Sys2Proof
end

