-- ==== Sys2Proof/Machine/State.lean ====
section
/-! DEFINITION. The state of PF-SPI-TXE (10_state.md R42), the reasons a step stops, and the state after reset. -/

namespace Sys2Proof.Machine

/-- The statuses a command ends with (60_exceptions.md R180, R181); there are no others. -/
inductive Status where
  | ok
  | deviceUnavailable
  | invalidAddress
  | busIoError
  | partialBurstFailure
  | notOpen
  deriving DecidableEq, Repr

/-- The data of a response (30_encoding.md R93): one byte, a buffer, or absent. -/
inductive RespData where
  | absent
  | byte (b : Byte)
  | buffer (bytes : List Byte)
  deriving DecidableEq, Repr

/-- The response record, produced once per accepted command when it completes (30_encoding.md R93, 10_state.md R35). -/
structure Response where
  status : Status
  data : RespData
  chunksOk : Nat
  deriving DecidableEq, Repr

/-- The environment's answer to a bus transaction (20_memory.md R56). -/
inductive BusAnswer where
  | ok (rx : List Byte)
  | fail
  deriving DecidableEq, Repr

/-- One entry of `BUS_TRACE` (10_state.md R36). -/
structure TraceEntry where
  tx : List Byte
  rxLen : Nat
  answer : BusAnswer
  deriving DecidableEq, Repr

/-- The encoder's output `HDR` (10_state.md R29): three header bytes, or `InvalidAddress` (40_header_encoder.md R110). -/
inductive HeaderOut where
  | header (b0 b1 b2 : Byte)
  | invalidAddress
  deriving DecidableEq, Repr

/-- The operand latches (10_state.md R20 to R26). -/
structure Latches where
  /-- `CMD_OP` (R21). -/
  op : Op
  /-- `CMD_MUX` (R22). -/
  mux : Byte
  /-- `CMD_TGT` (R23). -/
  tgt : Byte
  /-- `CMD_ADDR` (R24): of a burst, the starting address. -/
  addr : Byte
  /-- `CMD_VAL` (R25). -/
  val : Byte
  /-- `CMD_LEN` (R26). -/
  len : Nat
  deriving DecidableEq, Repr

/-- Where the block stands among the steps of 42_burst.md R150, with the hidden state of 10_state.md R39. -/
inductive Phase where
  /-- no command in progress: `BUSY = 0`. -/
  | idle
  /-- step 2, *Issue*, is next. -/
  | issue
  /-- a transaction is in flight (10_state.md R39); step 3, *Answer*, is next. -/
  | waiting (tx : List Byte) (rxLen : Nat)
  /-- step 4, *Complete*, is next, with the response it produces. -/
  | completing (r : Response)
  deriving DecidableEq, Repr

/-- The environment's coming answers, oldest first; where a list is empty the answer is a free value, numbered by `draws`.
The model's own fields (log entries 3 and 4). -/
structure Env where
  /-- its answers to the coming bus transactions (20_memory.md R56). -/
  answers : List BusAnswer
  /-- its answers to the coming `draw avail` (43_session.md R170). -/
  avails : List Bool
  /-- how many free values have been drawn. -/
  draws : Nat
  deriving DecidableEq, Repr

/-- The machine's state: every element of 10_state.md R42, the inputs from the host and the environment, and the output
port. -/
structure State where
  /-- the configuration (10_state.md R38, 00_scope.md R5): read only. -/
  cfg : Params
  /-- `OPEN` (10_state.md R30). -/
  isOpen : Bool
  /-- the sequencer's place and the transaction in flight (10_state.md R28, R39); `BUSY` is `State.busy`. -/
  phase : Phase
  /-- `K`, the index of the next chunk (10_state.md R28). -/
  k : Nat
  /-- `NCH`, the number of chunks (10_state.md R28). -/
  nch : Nat
  /-- the operand latches (10_state.md R20). -/
  cmd : Latches
  /-- `WBUF`, captured at acceptance (10_state.md R32, 20_memory.md R66). -/
  wbuf : List Byte
  /-- `RBUF`, byte `i` at index `i`, as far as stored (10_state.md R33). -/
  rbuf : List Byte
  /-- `RDATA` (10_state.md R33). -/
  rdata : Byte
  /-- `HDR`, the encoder's output at its last evaluation (10_state.md R29; no storage element, log entry 9). -/
  hdr : HeaderOut
  /-- `LAST_STATUS` (10_state.md R31). -/
  lastStatus : Status
  /-- `CHUNKS_OK` (10_state.md R31). -/
  chunksOk : Nat
  /-- `BUS_TRACE`, oldest first (10_state.md R36; ghost). -/
  trace : List TraceEntry
  /-- the responses produced, oldest first (10_state.md R35). -/
  responses : List Response
  /-- what the host will present, first one next (00_scope.md R7; the model's own, log entry 1). -/
  host : List Request
  /-- what the environment will answer (00_scope.md R7; the model's own). -/
  env : Env
  /-- whether a command is taken step by step (42_burst.md R150) or as one step (10_state.md R43); the model's own, log
  entry 8. -/
  stepwise : Bool
  deriving DecidableEq, Repr

/-- `BUSY`: 1 from the acceptance of a command to its completion (10_state.md R28). -/
def State.busy (s : State) : Bool := s.phase != .idle

/-- `CMD_READY = not BUSY` (10_state.md R35). -/
def State.cmdReady (s : State) : Bool := !s.busy

/-- Why the machine stops with a fault. -/
inductive Fault where
  /-- `CLOSE` with `OPEN = 0`, raised by CLOSE (43_session.md R171, 60_exceptions.md R195, U1: "a programming error, not a
  recoverable condition"). Safe: the spec gives the step no result and treats it as a fault. -/
  | closeWhileClosed
  deriving DecidableEq, Repr

/-- Why the machine gives a request no meaning. -/
inductive Refusal where
  /-- an operation without a meaning in this model, raised by `exec` alone. Safe. No arm uses it. -/
  | notModelled (mnemonic : String)
  /-- a command record with a reserved operation code, raised by `step` (30_encoding.md R97, D24, U7: "a model refuses
  them"). Safe: no transaction is issued and no result is claimed. -/
  | reservedOp (op : Byte)
  deriving DecidableEq, Repr

/-- The state right after reset: the values of 10_state.md R42 and 70_reset_and_hazards.md R210. Elements they leave
unspecified hold the values of log entry 2 (DESIGN CHOICE); the inputs are empty (log entries 1, 3, 4) and `stepwise` is
off (log entry 8). -/
def State.reset : State where
  cfg := Config.params
  isOpen := false
  phase := .idle
  k := 0
  nch := 0
  cmd := { op := .openBus, mux := 0#8, tgt := 0#8, addr := 0#8, val := 0#8, len := 0 }
  wbuf := []
  rbuf := []
  rdata := 0#8
  hdr := .header 0#8 0#8 0#8
  lastStatus := .ok
  chunksOk := 0
  trace := []
  responses := []
  host := []
  env := { answers := [], avails := [], draws := 0 }
  stepwise := false

end Sys2Proof.Machine
end

