-- ==== Sys2Proof/Machine/Operands.lean ====
section
/-! DEFINITION. Operand assembly: the header encoder's function (40_header_encoder.md R110), the chunk arithmetic of a burst
(42_burst.md R141, R142) and the frames on the bus (30_encoding.md R84). -/

namespace Sys2Proof.Machine

/-! ## The header encoder -/

/-- `ENCODE_HEADER` (40_header_encoder.md R110), a function of its operands and the parameters alone (R111). The address is
taken to its low 7 bits, which changes it only under `MASK` (30_encoding.md R94). -/
def encodeHeader (cfg : Params) (mux target : Byte) (address : Nat) (dir : Direction) : HeaderOut :=
  if 0x7F < address ∧ cfg.addrOverflow = .reject then .invalidAddress
  else
    .header (muxCode mux) (tgtCode target)
      (headerByte2 (dirBit cfg.dirWrite dir) (BitVec.ofNat 7 address))

/-- The header's bytes in bus order (20_memory.md R53). -/
def HeaderOut.bytes : HeaderOut → List Byte
  | .header b0 b1 b2 => [b0, b1, b2]
  | .invalidAddress => []

/-! ## Chunk arithmetic -/

/-- `NCH = ceil(N / C)` (42_burst.md R141). -/
def chunkCount (cfg : Params) (n : Nat) : Nat := (n + cfg.chunkMax - 1) / cfg.chunkMax

/-- `off(k) = k * C` (42_burst.md R141). -/
def chunkOff (cfg : Params) (k : Nat) : Nat := k * cfg.chunkMax

/-- `L(k) = min(C, N - off(k))` (42_burst.md R141). -/
def chunkLen (cfg : Params) (n k : Nat) : Nat := min cfg.chunkMax (n - chunkOff cfg k)

/-- `addr(k) = A + k * S`, a natural number (42_burst.md R142). -/
def chunkAddr (cfg : Params) (address : Byte) (k : Nat) : Nat := address.toNat + k * cfg.stride

/-- The check of a burst of `n > 0` bytes before its first chunk: under `REJECT` the last chunk's address must be
representable (42_burst.md R143). -/
def burstRejected (cfg : Params) (address : Byte) (n : Nat) : Bool :=
  decide (cfg.addrOverflow = .reject ∧ 0x7F < chunkAddr cfg address (chunkCount cfg n - 1))

/-! ## Frames -/

/-- The data bytes a transaction sends: those of a write (30_encoding.md R84). -/
def frameData (dir : Direction) (data : List Byte) : List Byte :=
  match dir with
  | .write => data
  | .read => []

/-- How many bytes a transaction receives: those of a read (30_encoding.md R84). -/
def frameRxLen (dir : Direction) (len : Nat) : Nat :=
  match dir with
  | .write => 0
  | .read => len

/-- `buf[off .. off + len - 1]` (00_scope.md R9). -/
def slice (buf : List Byte) (off len : Nat) : List Byte := (buf.drop off).take len

/-! ## The environment's answers -/

/-- What the environment says next: the next answer of its list, or a free choice between `Ok` and `Fail` (U8). -/
def Env.rawAnswer (e : Env) : BusAnswer :=
  match e.answers with
  | a :: _ => a
  | [] => if Config.freeFail e.draws then .fail else .ok []

/-- An answer to a transaction that receives `n` bytes: `Ok(rx)` always has `n` of them (20_memory.md R56); surplus bytes
are dropped, and missing ones are the bytes `free` gives. -/
def BusAnswer.fit (n : Nat) (free : Nat → Byte) : BusAnswer → BusAnswer
  | .fail => .fail
  | .ok rx => .ok ((List.range n).map fun j => rx.getD j (free j))

/-- The answer of a bus transaction that receives `n` bytes; bytes the list does not give are free values (U9). -/
def Env.answer (e : Env) (n : Nat) : BusAnswer := e.rawAnswer.fit n (Config.freeByte e.draws)

/-- The environment after it has answered a bus transaction. -/
def Env.afterAnswer (e : Env) : Env := { e with answers := e.answers.drop 1, draws := e.draws + 1 }

/-- The draw `avail` of OPEN: the next of the list, or a free value (43_session.md R170). -/
def Env.avail (e : Env) : Bool :=
  match e.avails with
  | a :: _ => a
  | [] => Config.freeAvail e.draws

/-- The environment after a draw of `avail`. -/
def Env.afterAvail (e : Env) : Env := { e with avails := e.avails.drop 1, draws := e.draws + 1 }

end Sys2Proof.Machine
end

