-- ==== Sys2Proof/Machine/Flags.lean ====
section
/-! DEFINITION. The block has no flags or condition codes (10_state.md R37): "the outcome of a command is its response
status and nothing else". This file holds what is computed of statuses. -/

namespace Sys2Proof.Machine

/-- The status codes, 3 bits (60_exceptions.md R181, decision D7). -/
def Status.code : Status → BitVec 3
  | .ok => 0#3
  | .deviceUnavailable => 1#3
  | .invalidAddress => 2#3
  | .busIoError => 3#3
  | .partialBurstFailure => 4#3
  | .notOpen => 5#3

/-- Whether a status is a bus error: `PartialBurstFailure` is "a distinguished case of `BusIoError`" (60_exceptions.md
R180, R185). -/
def Status.isBusError : Status → Bool
  | .busIoError => true
  | .partialBurstFailure => true
  | _ => false

/-- `CHUNKS_OK` as a completion writes it: the count with `PartialBurstFailure`, else 0 (60_exceptions.md R190). -/
def chunksOkOf (st : Status) (k : Nat) : Nat := if st = .partialBurstFailure then k else 0

end Sys2Proof.Machine
end

