-- ==== Sys2Proof/Machine/Ops.lean ====
section
/-! DEFINITION. The shared operations over the state: acceptance, the bus transaction, completion and the raising of an
error status (the block has no traps, 60_exceptions.md R190, and no memory, 20_memory.md). -/

namespace Sys2Proof.Machine

/-! ## Acceptance -/

/-- A command is accepted only while `BUSY = 0` (60_exceptions.md R194, 70_reset_and_hazards.md R213); one presented while
`BUSY = 1` changes nothing. -/
def State.accepting (s : State)
    (run : State → Host.Outcome State Fault Refusal) : Host.Outcome State Fault Refusal :=
  if s.busy then .next s else run s

/-- Loading the operand latches at acceptance (10_state.md R20 to R26): the fields the operation uses (30_encoding.md R91),
the others keep their values. `ENCODE_HEADER` is no host command and loads nothing. -/
def State.latch (i : Instr) (s : State) : State :=
  match i with
  | .openBus => { s with cmd := { s.cmd with op := .openBus } }
  | .closeBus => { s with cmd := { s.cmd with op := .closeBus } }
  | .writeByte m t a v =>
      { s with cmd := { s.cmd with op := .writeByte, mux := m, tgt := t, addr := a, val := v } }
  | .readByte m t a => { s with cmd := { s.cmd with op := .readByte, mux := m, tgt := t, addr := a } }
  | .writeBurst m t a buf =>
      { s with
        cmd := { s.cmd with op := .writeBurst, mux := m, tgt := t, addr := a, len := buf.length }
        wbuf := buf }
  | .readBurst m t a n =>
      { s with cmd := { s.cmd with op := .readBurst, mux := m, tgt := t, addr := a, len := n } }
  | .encodeHeaderW _ _ _ => s
  | .encodeHeaderR _ _ _ => s

/-! ## The encoder and the bus -/

/-- Evaluate the encoder: its output appears on `HDR` (10_state.md R29) and nothing else changes (40_header_encoder.md
R111). -/
def State.evalHeader (mux target : Byte) (address : Nat) (dir : Direction) (s : State) : State :=
  { s with hdr := encodeHeader s.cfg mux target address dir }

/-- `BusTxn(tx, rx_len)` (20_memory.md R56): the environment answers `s.env.answer rxLen`, and the trace grows by one
entry. -/
def State.busTxn (tx : List Byte) (rxLen : Nat) (s : State) : State :=
  { s with
    env := s.env.afterAnswer
    trace := s.trace ++ [{ tx := tx, rxLen := rxLen, answer := s.env.answer rxLen }] }

/-! ## Writes of single elements -/

/-- Write `OPEN`. -/
def State.setOpen (b : Bool) (s : State) : State := { s with isOpen := b }

/-- Write `K`. -/
def State.setK (k : Nat) (s : State) : State := { s with k := k }

/-- Write `NCH`. -/
def State.setNch (n : Nat) (s : State) : State := { s with nch := n }

/-- Write `RDATA`. -/
def State.setRdata (b : Byte) (s : State) : State := { s with rdata := b }

/-- Move the sequencer (42_burst.md R150). -/
def State.setPhase (p : Phase) (s : State) : State := { s with phase := p }

/-- The environment says whether the device is available (43_session.md R170). -/
def State.drawAvail (s : State) : State := { s with env := s.env.afterAvail }

/-- `RBUF[off + j] <- rx[j]` for the bytes of a read chunk at offset `off` (42_burst.md R145); a write chunk stores nothing.
Bytes of higher index hold nothing yet (10_state.md R41 c). -/
def State.storeChunk (dir : Direction) (off : Nat) (rx : List Byte) (s : State) : State :=
  match dir with
  | .write => s
  | .read => { s with rbuf := s.rbuf.take off ++ rx }

/-! ## Completion -/

/-- After a command that failed with `st`, `RDATA` and `RBUF` are unspecified (10_state.md R33, U11): free values. After
`NotOpen` no buffer has been written (60_exceptions.md R186, 43_session.md R174): `RBUF` stays. Log entry 5. -/
def State.spoil (st : Status) (s : State) : State :=
  { s with
    rdata := Config.freeRdata s.env.draws s.rdata
    rbuf := if st = .notOpen then s.rbuf else Config.freeRbuf s.env.draws s.rbuf
    env := { s.env with draws := s.env.draws + 1 } }

/-- Step 4 of 42_burst.md R150, *Complete*: `LAST_STATUS`, `CHUNKS_OK`, the response, and `BUSY <- 0`. -/
def State.finish (r : Response) (s : State) : State :=
  let s' := if r.status = .ok then s else s.spoil r.status
  { s' with
    lastStatus := r.status
    chunksOk := r.chunksOk
    responses := s'.responses ++ [r]
    phase := .idle }

/-- `respond Ok(data)`, normal completion (00_scope.md R9). -/
def State.respond (data : RespData) (s : State) : State :=
  s.finish { status := .ok, data := data, chunksOk := 0 }

/-- The response of `raise <Status>`: no data, and the count only with `PartialBurstFailure` (60_exceptions.md R190). -/
def errorResponse (st : Status) (k : Nat) : Response :=
  { status := st, data := .absent, chunksOk := chunksOkOf st k }

/-- `raise <Status>(info)`, the one way a command ends in error (60_exceptions.md R190): it saves nothing and transfers
control nowhere, and there is nothing to return from (R192). -/
def State.raise (st : Status) (k : Nat) (s : State) : State := s.finish (errorResponse st k)

/-! ## The command port -/

/-- What the host presents now, if anything (10_state.md R35). -/
def State.presented (s : State) : Option Request := s.host.head?

/-- The request presented has been taken. -/
def State.takeRequest (s : State) : State := { s with host := s.host.tail }

end Sys2Proof.Machine
end

