-- ==== Sys2Proof/Machine/Burst.lean ====
section
/-! DEFINITION. The burst fragmenter and reassembler, WRITE_BURST and READ_BURST (42_burst.md). The two pseudocodes differ
in the frame they send and in storing what is received; the shared loop takes the direction. -/

namespace Sys2Proof.Machine

/-- The data of a burst's `Ok` response (30_encoding.md R93): a read delivers `RBUF[0 .. N - 1]`, a write nothing. -/
def burstData (dir : Direction) (n : Nat) (s : State) : RespData :=
  match dir with
  | .write => .absent
  | .read => .buffer (s.rbuf.take n)

/-- The loop `while K < NCH` of 42_burst.md R144 and R145 with `left = NCH - K` chunks to go: per chunk one header for
`addr(K)`, one transaction, then `K <- K + 1`, and an early exit on `Fail` (R148). The encoder cannot fail here once the
burst's check has passed (R143); its `InvalidAddress` would end the command as R110 says. -/
def burstChunks (dir : Direction) (mux target address : Byte) (buf : List Byte) (n : Nat) :
    Nat → State → State
  | 0, s => s.respond (burstData dir n s)
  | left + 1, s =>
    let s := s.evalHeader mux target (chunkAddr s.cfg address s.k) dir
    match s.hdr with
    | .invalidAddress => s.raise .invalidAddress 0
    | .header b0 b1 b2 =>
      let off := chunkOff s.cfg s.k
      let len := chunkLen s.cfg n s.k
      let t := s.busTxn ([b0, b1, b2] ++ frameData dir (slice buf off len)) (frameRxLen dir len)
      match s.env.answer (frameRxLen dir len) with
      | .fail => t.raise .partialBurstFailure s.k
      | .ok rx =>
        burstChunks dir mux target address buf n left ((t.storeChunk dir off rx).setK (s.k + 1))

/-- A burst of `n` bytes after its operands are latched: the open test, the length test (42_burst.md R146), `NCH`, the
address check (R143), then the chunks. -/
def runBurst (dir : Direction) (mux target address : Byte) (buf : List Byte) (n : Nat)
    (s : State) : State :=
  if s.isOpen then
    if n = 0 then s.respond (burstData dir n s)
    else
      let s := s.setNch (chunkCount s.cfg n)
      if burstRejected s.cfg address n then s.raise .invalidAddress 0
      else burstChunks dir mux target address buf n (chunkCount s.cfg n) (s.setK 0)
  else s.raise .notOpen 0

/-- `WRITE_BURST` (42_burst.md R144): one frame `WB` per chunk (30_encoding.md R87). -/
def execWriteBurst (mux target address : Byte) (buffer : List Byte) (s : State) :
    Host.Outcome State Fault Refusal :=
  s.accepting fun s =>
    .next (runBurst .write mux target address buffer buffer.length
      (s.latch (.writeBurst mux target address buffer)))

/-- `READ_BURST` (42_burst.md R145): one frame `RB` per chunk (30_encoding.md R88). -/
def execReadBurst (mux target address : Byte) (length : Nat) (s : State) :
    Host.Outcome State Fault Refusal :=
  s.accepting fun s =>
    .next (runBurst .read mux target address [] length
      (s.latch (.readBurst mux target address length)))

end Sys2Proof.Machine
end

