-- ==== Sys2Proof/Machine/Header.lean ====
section
/-! DEFINITION. `ENCODE_HEADER` as an operation of its own (40_header_encoder.md R110). It is internal: not a host command,
so it is not accepted, ends with no status and issues no transaction; its output is on `HDR` (log entries 9 and 10). -/

namespace Sys2Proof.Machine

/-- `ENCODE_HEADER(mux_mode, target, address, WRITE)` (40_header_encoder.md R110). -/
def execEncodeHeaderW (mux target : Byte) (address : Nat) (s : State) :
    Host.Outcome State Fault Refusal :=
  .next (s.evalHeader mux target address .write)

/-- `ENCODE_HEADER(mux_mode, target, address, READ)` (40_header_encoder.md R110). -/
def execEncodeHeaderR (mux target : Byte) (address : Nat) (s : State) :
    Host.Outcome State Fault Refusal :=
  .next (s.evalHeader mux target address .read)

end Sys2Proof.Machine
end

