-- ==== Sys2Proof/Machine/Session.lean ====
section
/-! DEFINITION. The session operations OPEN and CLOSE (43_session.md). -/

namespace Sys2Proof.Machine

/-- `OPEN` (43_session.md R170): refused with `DeviceUnavailable` when already open; else the environment says whether the
device is available. No bus transaction. -/
def execOpenBus (s : State) : Host.Outcome State Fault Refusal :=
  s.accepting fun s =>
    let s := s.latch .openBus
    .next (
      if s.isOpen then s.raise .deviceUnavailable 0
      else if s.env.avail then (s.drawAvail.setOpen true).respond .absent
      else s.drawAvail.raise .deviceUnavailable 0)

/-- `CLOSE` (43_session.md R171): a fault when already closed. No bus transaction. -/
def execCloseBus (s : State) : Host.Outcome State Fault Refusal :=
  s.accepting fun s =>
    if s.isOpen then .next (((s.latch .closeBus).setOpen false).respond .absent)
    else .fault .closeWhileClosed

end Sys2Proof.Machine
end

