-- ==== Sys2Proof/Machine/Single.lean ====
section
/-! DEFINITION. The single-byte transfers WRITE_BYTE and READ_BYTE (41_single_transfer.md): the open test, the encoder's
address check (R120), then exactly one bus transaction (R123). -/

namespace Sys2Proof.Machine

/-- `WRITE_BYTE` (41_single_transfer.md R121): frame `W1` (30_encoding.md R85). -/
def execWriteByte (mux target address value : Byte) (s : State) :
    Host.Outcome State Fault Refusal :=
  s.accepting fun s =>
    let s := s.latch (.writeByte mux target address value)
    .next (
      if s.isOpen then
        let s := s.evalHeader mux target address.toNat .write
        match s.hdr with
        | .invalidAddress => s.raise .invalidAddress 0
        | .header b0 b1 b2 =>
          let t := s.busTxn [b0, b1, b2, value] 0
          match s.env.answer 0 with
          | .fail => t.raise .busIoError 0
          | .ok _ => t.respond .absent
      else s.raise .notOpen 0)

/-- `READ_BYTE` (41_single_transfer.md R122): frame `R1` (30_encoding.md R86). The answer `Ok` holds exactly one byte
(20_memory.md R56), so the default of `headD` is never used. -/
def execReadByte (mux target address : Byte) (s : State) : Host.Outcome State Fault Refusal :=
  s.accepting fun s =>
    let s := s.latch (.readByte mux target address)
    .next (
      if s.isOpen then
        let s := s.evalHeader mux target address.toNat .read
        match s.hdr with
        | .invalidAddress => s.raise .invalidAddress 0
        | .header b0 b1 b2 =>
          let t := s.busTxn [b0, b1, b2] 1
          match s.env.answer 1 with
          | .fail => t.raise .busIoError 0
          | .ok rx => (t.setRdata (rx.headD 0#8)).respond (.byte (rx.headD 0#8))
      else s.raise .notOpen 0)

end Sys2Proof.Machine
end

