-- ==== Sys2Proof/Machine/Dispatch.lean ====
section
/-! DEFINITION. The meaning of each operation, one arm per constructor. -/

namespace Sys2Proof.Machine

/-- What an operation does, whole (10_state.md R43). -/
def exec (i : Instr) (s : State) : Host.Outcome State Fault Refusal :=
  match i with
  | .openBus => Sys2Proof.Machine.execOpenBus s
  | .closeBus => Sys2Proof.Machine.execCloseBus s
  | .writeByte mux target address value => Sys2Proof.Machine.execWriteByte mux target address value s
  | .readByte mux target address => Sys2Proof.Machine.execReadByte mux target address s
  | .writeBurst mux target address buffer => Sys2Proof.Machine.execWriteBurst mux target address buffer s
  | .readBurst mux target address length => Sys2Proof.Machine.execReadBurst mux target address length s
  | .encodeHeaderW mux target address => Sys2Proof.Machine.execEncodeHeaderW mux target address s
  | .encodeHeaderR mux target address => Sys2Proof.Machine.execEncodeHeaderR mux target address s

end Sys2Proof.Machine
end

