-- ==== Sys2Proof/Machine/Sequencer.lean ====
section
/-! DEFINITION. The step-by-step reading of a command, 42_burst.md R150: *Accept*, *Issue*, *Answer*, *Complete*, each one
atomic step. It works from the latches; the meanings of Single.lean and Burst.lean work from the operands. -/

namespace Sys2Proof.Machine

/-- The command ends its checks with a response to give. -/
def State.complete (r : Response) (s : State) : State := s.setPhase (.completing r)

/-- The command ends in an error, to be completed in the next step. -/
def State.failing (st : Status) (k : Nat) (s : State) : State := s.complete (errorResponse st k)

/-- The command ends well, to be completed in the next step. -/
def State.succeeding (data : RespData) (s : State) : State :=
  s.complete { status := .ok, data := data, chunksOk := 0 }

/-! ## Step 1, Accept -/

/-- Step 1 of a single-byte transfer whose operands are latched: the open test, then the encoder's check in place of the
burst's (42_burst.md R150, last paragraph). -/
def acceptSingle (dir : Direction) (s : State) : State :=
  if s.isOpen then
    let s := s.evalHeader s.cmd.mux s.cmd.tgt s.cmd.addr.toNat dir
    match s.hdr with
    | .invalidAddress => s.failing .invalidAddress 0
    | .header _ _ _ => s.setPhase .issue
  else s.failing .notOpen 0

/-- Step 1 of a burst whose operands are latched (42_burst.md R150). -/
def acceptBurst (dir : Direction) (s : State) : State :=
  if s.isOpen then
    if s.cmd.len = 0 then s.succeeding (burstData dir s.cmd.len s)
    else
      let s := s.setNch (chunkCount s.cfg s.cmd.len)
      if burstRejected s.cfg s.cmd.addr s.cmd.len then s.failing .invalidAddress 0
      else (s.setK 0).setPhase .issue
  else s.failing .notOpen 0

/-- Step 1 of OPEN: the environment draws `avail` unless the block is open already (43_session.md R170). -/
def acceptOpen (s : State) : State :=
  if s.isOpen then s.failing .deviceUnavailable 0
  else if s.env.avail then s.drawAvail.succeeding .absent
  else s.drawAvail.failing .deviceUnavailable 0

/-- *Accept* (42_burst.md R150 step 1): requires `BUSY = 0`; latch the operands and decide without any bus activity. A
`CLOSE` on a closed block has no result (43_session.md R171). An encoder call is no command and is done at once. -/
def acceptStep (i : Instr) (s : State) : Host.Outcome State Fault Refusal :=
  s.accepting fun s =>
    let s := s.latch i
    match i with
    | .openBus => .next (acceptOpen s)
    | .closeBus => if s.isOpen then .next (s.succeeding .absent) else .fault .closeWhileClosed
    | .writeByte _ _ _ _ => .next (acceptSingle .write s)
    | .readByte _ _ _ => .next (acceptSingle .read s)
    | .writeBurst _ _ _ _ => .next (acceptBurst .write s)
    | .readBurst _ _ _ _ => .next (acceptBurst .read s)
    | .encodeHeaderW mux target address => .next (s.evalHeader mux target address .write)
    | .encodeHeaderR mux target address => .next (s.evalHeader mux target address .read)

/-! ## Step 2, Issue -/

/-- Start a transaction: the header for `address`, then the data of a write; the block now waits (10_state.md R39). -/
def startTxn (dir : Direction) (address : Nat) (data : List Byte) (len : Nat) (s : State) : State :=
  let s := s.evalHeader s.cmd.mux s.cmd.tgt address dir
  match s.hdr with
  | .invalidAddress => s.failing .invalidAddress 0
  | .header b0 b1 b2 =>
    s.setPhase (.waiting ([b0, b1, b2] ++ frameData dir data) (frameRxLen dir len))

/-- The transaction of chunk `K` of a burst. -/
def startChunk (dir : Direction) (s : State) : State :=
  let len := chunkLen s.cfg s.cmd.len s.k
  startTxn dir (chunkAddr s.cfg s.cmd.addr s.k) (slice s.wbuf (chunkOff s.cfg s.k) len) len s

/-- *Issue* (42_burst.md R150 step 2). The session operations issue nothing (43_session.md) and never come here; no step is
enabled for them. -/
def issueStep (s : State) : State :=
  match s.cmd.op with
  | .openBus => s
  | .closeBus => s
  | .writeByte => startTxn .write s.cmd.addr.toNat [s.cmd.val] 1 s
  | .readByte => startTxn .read s.cmd.addr.toNat [] 1 s
  | .writeBurst => startChunk .write s
  | .readBurst => startChunk .read s

/-! ## Step 3, Answer -/

/-- A chunk was answered `Ok(rx)`: store, `K <- K + 1`, and complete or issue the next (42_burst.md R150 step 3). -/
def chunkAnswered (dir : Direction) (rx : List Byte) (s : State) : State :=
  let s := (s.storeChunk dir (chunkOff s.cfg s.k) rx).setK (s.k + 1)
  if s.k = s.nch then s.succeeding (burstData dir s.cmd.len s) else s.setPhase .issue

/-- What follows an `Ok(rx)`, by the command in progress. -/
def answeredOk (rx : List Byte) (s : State) : State :=
  match s.cmd.op with
  | .openBus => s
  | .closeBus => s
  | .writeByte => s.succeeding .absent
  | .readByte => (s.setRdata (rx.headD 0#8)).succeeding (.byte (rx.headD 0#8))
  | .writeBurst => chunkAnswered .write rx s
  | .readBurst => chunkAnswered .read rx s

/-- What follows a `Fail`: `BusIoError` for the single-byte transfers, `PartialBurstFailure` with `chunks_ok = K` for the
bursts (42_burst.md R148, R150). -/
def answeredFail (s : State) : State :=
  match s.cmd.op with
  | .openBus => s
  | .closeBus => s
  | .writeByte => s.failing .busIoError 0
  | .readByte => s.failing .busIoError 0
  | .writeBurst => s.failing .partialBurstFailure s.k
  | .readBurst => s.failing .partialBurstFailure s.k

/-- *Answer* (42_burst.md R150 step 3): the environment answers the transaction in flight. -/
def answerStep (tx : List Byte) (rxLen : Nat) (s : State) : State :=
  match s.env.answer rxLen with
  | .fail => answeredFail (s.busTxn tx rxLen)
  | .ok rx => answeredOk rx (s.busTxn tx rxLen)

/-! ## Step 4, Complete -/

/-- `OPEN` changes only at the completion of a successful OPEN or CLOSE (10_state.md R30, R41 d). -/
def sessionEffect (r : Response) (s : State) : State :=
  if r.status = .ok then
    match s.cmd.op with
    | .openBus => s.setOpen true
    | .closeBus => s.setOpen false
    | .writeByte => s
    | .readByte => s
    | .writeBurst => s
    | .readBurst => s
  else s

/-- *Complete* (42_burst.md R150 step 4). -/
def completeStep (r : Response) (s : State) : State := (sessionEffect r s).finish r

/-- One step of the command in progress; idle, none. -/
def sequencerStep (s : State) : State :=
  match s.phase with
  | .idle => s
  | .issue => issueStep s
  | .waiting tx rxLen => answerStep tx rxLen s
  | .completing r => completeStep r s

/-! ## What the host presents -/

/-- Take a request that spells the operation `i`: as one step (10_state.md R43) or with *Accept* alone (42_burst.md R150). -/
def takeInstr (i : Instr) (run : Instr → State → Host.Outcome State Fault Refusal) (s : State) :
    Host.Outcome State Fault Refusal :=
  if s.stepwise then acceptStep i s.takeRequest else run i s.takeRequest

/-- An idle block looks at its command port: it waits if nothing is presented (70_reset_and_hazards.md R210, "the block
waits for a command"), refuses a reserved code (30_encoding.md R97), and else takes the operation. -/
def idleStep (run : Instr → State → Host.Outcome State Fault Refusal) (s : State) :
    Host.Outcome State Fault Refusal :=
  match s.presented with
  | none => .next s
  | some w =>
    match decode s.cfg.dirWrite w with
    | .error (.reservedOp op) => .refused (.reservedOp op)
    | .ok i => takeInstr i run s

/-- `s` with the operation of a table word next at the command port, spelled for the configuration of `s`. -/
def presentWord (nbits w : Nat) (s : State) : State :=
  let req :=
    match decodeTableWord nbits w with
    | some i => encode s.cfg.dirWrite i
    | none => tableRequest nbits w
  { s with host := req :: s.host, phase := .idle, stepwise := false }

end Sys2Proof.Machine
end

