-- ==== Sys2Proof/Machine/Step.lean ====
section
/-! DEFINITION. One step of the machine, and the placing of a word where the next step takes it. -/

namespace Sys2Proof.Machine

/-- One step. A busy block goes on with its command and accepts nothing (70_reset_and_hazards.md R213); an idle one takes
what the host presents. With `stepwise` off a command is one step, `exec` (10_state.md R43); with it on, *Accept*, and
then one step of 42_burst.md R150 at a time. -/
def step (s : State) : Host.Outcome State Fault Refusal :=
  if s.busy then .next (sequencerStep s) else idleStep exec s

/-- `s` with the opcode-table word `w` next at the command port of an idle block: the block fetches no instructions
(10_state.md R27), its host presents them. Log entries 1 and 11. -/
def State.withFetchWord (s : State) (nbits w : Nat) : State := presentWord nbits w s

end Sys2Proof.Machine
end

