-- ==== Sys2Proof/Safety.lean ====
section
/-! DEFINITION. What claims are stated in: the trace a burst should leave, well-formed transactions and responses, the
invariant of the machine (10_state.md R41), and an echo fixture for the loop-back property. -/

namespace Sys2Proof.Machine

/-! ## Transactions -/

/-- The data bytes of a trace entry, its header dropped (42_burst.md R149). -/
def TraceEntry.data (e : TraceEntry) : List Byte := e.tx.drop 3

/-- The bytes an answer brings. -/
def BusAnswer.received : BusAnswer → List Byte
  | .ok rx => rx
  | .fail => []

/-- Whether an answer is `Ok`. -/
def BusAnswer.isOk : BusAnswer → Bool
  | .ok _ => true
  | .fail => false

/-- A legal transaction (20_memory.md R56, R58; 30_encoding.md R80, R83, R84): three header bytes, then either 1 to `C` data
bytes out under a write header, or 1 to `C` bytes in under a read header. -/
def frameWf (cfg : Params) (tx : List Byte) (rxLen : Nat) : Prop :=
  (∃ b0 b1 b2 data, tx = [b0, b1, b2] ++ data ∧ byte2Dir b2 = cfg.dirWrite ∧ rxLen = 0 ∧
      1 ≤ data.length ∧ data.length ≤ cfg.chunkMax) ∨
  (∃ b0 b1 b2, tx = [b0, b1, b2] ∧ byte2Dir b2 = !cfg.dirWrite ∧ 1 ≤ rxLen ∧ rxLen ≤ cfg.chunkMax)

/-- A legal trace entry: a legal transaction, answered with as many bytes as it asked for or with `Fail` (20_memory.md
R56). -/
def TraceEntry.wf (cfg : Params) (e : TraceEntry) : Prop :=
  frameWf cfg e.tx e.rxLen ∧ ∀ rx, e.answer = .ok rx → rx.length = e.rxLen

/-- A legal response (30_encoding.md R93): data only with `Ok`, a count only with `PartialBurstFailure`. -/
def Response.wf (r : Response) : Prop :=
  (r.status ≠ .ok → r.data = .absent) ∧ (r.status ≠ .partialBurstFailure → r.chunksOk = 0)

/-- A command that began in the idle state `s` has completed in `u`: it added the transactions `es` to the trace and gave the
one response `r`, the status registers repeat it, and the block is idle (42_burst.md R150 step 4, 60_exceptions.md R190). -/
structure Completed (s u : State) (es : List TraceEntry) (r : Response) : Prop where
  traced : u.trace = s.trace ++ es
  responded : u.responses = s.responses ++ [r]
  status : u.lastStatus = r.status
  count : u.chunksOk = r.chunksOk
  ready : u.busy = false

/-! ## The trace of a burst, written without the loop -/

/-- The environment after `j` bus transactions. -/
def Env.after (e : Env) (j : Nat) : Env := { e with answers := e.answers.drop j, draws := e.draws + j }

/-- The environment's answer to chunk `k` of a burst of `n` bytes that begins now. -/
def chunkAnswer (cfg : Params) (e : Env) (dir : Direction) (n k : Nat) : BusAnswer :=
  (e.after k).answer (frameRxLen dir (chunkLen cfg n k))

/-- The trace entry of chunk `k` (42_burst.md R140 to R142, R149): the header for `addr(k)`, then buffer bytes `off(k)` to
`off(k) + L(k) - 1` of a write. -/
def chunkEntry (cfg : Params) (e : Env) (dir : Direction) (mux target address : Byte)
    (buf : List Byte) (n k : Nat) : TraceEntry where
  tx := (encodeHeader cfg mux target (chunkAddr cfg address k) dir).bytes ++
    frameData dir (slice buf (chunkOff cfg k) (chunkLen cfg n k))
  rxLen := frameRxLen dir (chunkLen cfg n k)
  answer := chunkAnswer cfg e dir n k

/-- The entries of the first `j` chunks, in order (42_burst.md R147). -/
def chunkEntries (cfg : Params) (e : Env) (dir : Direction) (mux target address : Byte)
    (buf : List Byte) (n j : Nat) : List TraceEntry :=
  (List.range j).map (chunkEntry cfg e dir mux target address buf n)

/-- The bytes received in the first `j` chunks, in order (42_burst.md R145). -/
def chunksReceived (cfg : Params) (e : Env) (dir : Direction) (n j : Nat) : List Byte :=
  (List.range j).flatMap fun k => (chunkAnswer cfg e dir n k).received

/-- The environment answers the first `j` chunks `Ok`. -/
def chunksAnswered (cfg : Params) (e : Env) (dir : Direction) (n j : Nat) : Prop :=
  ∀ k < j, (chunkAnswer cfg e dir n k).isOk = true

/-! ## The invariant -/

/-- How many transactions a command issues at most: the chunks of a burst (42_burst.md R140), one for a single-byte
transfer (41_single_transfer.md R123), none for the others. -/
def commandChunks (cfg : Params) : Instr → Nat
  | .openBus => 0
  | .closeBus => 0
  | .writeByte _ _ _ _ => 1
  | .readByte _ _ _ => 1
  | .writeBurst _ _ _ buf => chunkCount cfg buf.length
  | .readBurst _ _ _ n => chunkCount cfg n
  | .encodeHeaderW _ _ _ => 0
  | .encodeHeaderR _ _ _ => 0

/-- The bytes the entries `es` of a burst have moved (10_state.md R41 c): those of index below `K * C`, capped at `N`, sent
from `WBUF` by a write, received and stored in `RBUF` by a read, and no byte of higher index (before the first store of a
read, `RBUF` is what it was). Only a burst has any. -/
def BytesMoved (s : State) (es : List TraceEntry) : Prop :=
  match s.cmd.op with
  | .openBus => False
  | .closeBus => False
  | .writeByte => False
  | .readByte => False
  | .writeBurst => s.wbuf.length = s.cmd.len ∧
      es.flatMap TraceEntry.data = s.wbuf.take (chunkOff s.cfg s.k)
  | .readBurst =>
      es.flatMap (fun e => e.answer.received) = s.rbuf.take (chunkOff s.cfg s.k) ∧
      (s.rbuf.take (chunkOff s.cfg s.k)).length = min (chunkOff s.cfg s.k) s.cmd.len ∧
      (0 < s.k → s.rbuf.length ≤ chunkOff s.cfg s.k)

/-- A burst that has passed its checks and has been answered `Ok` for the chunks whose entries are `es` (10_state.md R41
a, b, c): `OPEN = 1`, `K <= NCH`, no header can fail, and `es` are the chunks 0 to `K - 1`. -/
structure BurstChecked (s : State) (es : List TraceEntry) : Prop where
  is_open : s.isOpen = true
  len_pos : 0 < s.cmd.len
  nch_eq : s.nch = chunkCount s.cfg s.cmd.len
  k_le : s.k ≤ s.nch
  checked : burstRejected s.cfg s.cmd.addr s.cmd.len = false
  count : es.length = s.k
  answered : ∀ e ∈ es, e.answer.isOk = true
  moved : BytesMoved s es

/-- A burst with chunks left to issue or to be answered: `K < NCH`, and the chunks answered end the trace. -/
def BurstInProgress (s : State) : Prop :=
  s.k < s.nch ∧ ∃ pre es, s.trace = pre ++ es ∧ BurstChecked s es

/-- A burst whose chunks are all answered `Ok`: `K = NCH`, and they end the trace. -/
def BurstDone (s : State) : Prop :=
  s.k = s.nch ∧ ∃ pre es, s.trace = pre ++ es ∧ BurstChecked s es

/-- A burst whose chunk `K` was answered `Fail`: its entry is the last of the trace, after the chunks answered `Ok`. -/
def BurstFailed (s : State) : Prop :=
  s.k < s.nch ∧ ∃ pre es e, s.trace = pre ++ es ++ [e] ∧ e.answer = .fail ∧ BurstChecked s es

/-- The single-byte transfer in progress has been answered `ans` (10_state.md R41 a): `OPEN = 1`, and its one transaction
ends the trace. -/
def SingleAnswered (s : State) (ans : BusAnswer) : Prop :=
  s.isOpen = true ∧ ∃ pre e, s.trace = pre ++ [e] ∧ e.answer = ans

/-- A transfer that has passed its checks and is in progress (10_state.md R41 a, b, c), by the command in `CMD_OP`. -/
def TransferInProgress (s : State) : Prop :=
  s.isOpen = true ∧
  match s.cmd.op with
  | .openBus => False
  | .closeBus => False
  | .writeByte => encodeHeader s.cfg s.cmd.mux s.cmd.tgt s.cmd.addr.toNat .write ≠ .invalidAddress
  | .readByte => encodeHeader s.cfg s.cmd.mux s.cmd.tgt s.cmd.addr.toNat .read ≠ .invalidAddress
  | .writeBurst => BurstInProgress s
  | .readBurst => BurstInProgress s

/-- The frame of the transaction the command in progress issues next, from the latches (30_encoding.md R84). -/
def currentFrame (s : State) : List Byte × Nat :=
  match s.cmd.op with
  | .openBus => ([], 0)
  | .closeBus => ([], 0)
  | .writeByte =>
    ((encodeHeader s.cfg s.cmd.mux s.cmd.tgt s.cmd.addr.toNat .write).bytes ++ [s.cmd.val], 0)
  | .readByte => ((encodeHeader s.cfg s.cmd.mux s.cmd.tgt s.cmd.addr.toNat .read).bytes, 1)
  | .writeBurst =>
    ((encodeHeader s.cfg s.cmd.mux s.cmd.tgt (chunkAddr s.cfg s.cmd.addr s.k) .write).bytes ++
      slice s.wbuf (chunkOff s.cfg s.k) (chunkLen s.cfg s.cmd.len s.k), 0)
  | .readBurst =>
    ((encodeHeader s.cfg s.cmd.mux s.cmd.tgt (chunkAddr s.cfg s.cmd.addr s.k) .read).bytes,
      chunkLen s.cfg s.cmd.len s.k)

/-- An `Ok` about to be produced fits its command (30_encoding.md R93): READ_BYTE delivers `RDATA`, the byte its
transaction brought; READ_BURST the `N` bytes of `RBUF`; any other nothing. A successful OPEN was closed, every other
command open; a single-byte transfer made its transaction, and a burst of `N > 0` bytes all of its chunks. -/
def OkFits (s : State) (data : RespData) : Prop :=
  match s.cmd.op with
  | .openBus => data = .absent ∧ s.isOpen = false
  | .closeBus => data = .absent ∧ s.isOpen = true
  | .writeByte => data = .absent ∧ SingleAnswered s (.ok [])
  | .readByte => data = .byte s.rdata ∧ SingleAnswered s (.ok [s.rdata])
  | .writeBurst => data = .absent ∧ s.isOpen = true ∧ (0 < s.cmd.len → BurstDone s)
  | .readBurst => data = .buffer (s.rbuf.take s.cmd.len) ∧ (s.rbuf.take s.cmd.len).length = s.cmd.len ∧
      s.isOpen = true ∧ (0 < s.cmd.len → BurstDone s)

/-- A response about to be produced fits its command, by its status (60_exceptions.md R182 to R187, R189): which command
reports it, with `OPEN` as the checks found it, and with the transactions that led to it (10_state.md R41 a, b, c). -/
def CompletionFits (s : State) (r : Response) : Prop :=
  r.wf ∧
  match r.status with
  | .ok => OkFits s r.data
  | .deviceUnavailable => s.cmd.op = .openBus
  | .invalidAddress => s.cmd.op.isTransfer = true ∧ s.isOpen = true
  | .busIoError => (s.cmd.op = .writeByte ∨ s.cmd.op = .readByte) ∧ SingleAnswered s .fail
  | .partialBurstFailure => BurstFailed s ∧ r.chunksOk = s.k
  | .notOpen => s.cmd.op.isTransfer = true ∧ s.isOpen = false

/-- The invariant at each place of the sequencer. -/
def PhaseOk (s : State) : Prop :=
  match s.phase with
  | .idle => True
  | .issue => TransferInProgress s
  | .waiting tx rxLen => TransferInProgress s ∧ (tx, rxLen) = currentFrame s
  | .completing r => CompletionFits s r

/-- The invariant of the machine: every transaction on the bus is legal (20_memory.md R56, R58), every response is legal
(30_encoding.md R93), the status registers agree with the last response (10_state.md R31), and at every place of the
sequencer, completion of a failed transfer included, the state is as 10_state.md R41 says. -/
structure Inv (s : State) : Prop where
  trace_wf : ∀ e ∈ s.trace, e.wf s.cfg
  responses_wf : ∀ r ∈ s.responses, r.wf
  status_eq : ∀ r, s.responses.getLast? = some r → r.status = s.lastStatus ∧ r.chunksOk = s.chunksOk
  count_only : s.lastStatus ≠ .partialBurstFailure → s.chunksOk = 0
  phase_ok : PhaseOk s

/-- How many steps of 42_burst.md R150 the command in progress has left at most, by the chunks left. -/
def stepsLeft (s : State) : Nat :=
  let chunks :=
    match s.cmd.op with
    | .openBus => 1
    | .closeBus => 1
    | .writeByte => 1
    | .readByte => 1
    | .writeBurst => s.nch - s.k
    | .readBurst => s.nch - s.k
  match s.phase with
  | .idle => 0
  | .issue => 2 * chunks + 1
  | .waiting _ _ => 2 * chunks
  | .completing _ => 1

/-! ## The echo fixture -/

/-- What the fixture REGFILE of 95_test_vectors.md holds at (`byte0`, `byte1`, `ADDR7`) after a trace: the byte of the last
`W1` frame to it that was answered `Ok`, 0x00 before any. Test bench, not hardware; the loop-back property
(41_single_transfer.md R126) is stated with it. DESIGN CHOICE, log entry 27: a `W1` frame answered `Fail` and a frame with
more than one data byte leave the byte as it was. The spec defines the fixture for neither, and what a failed frame does to
a target is unknown (20_memory.md R69, D20). No statement's result depends on it. -/
def regfileValue (cfg : Params) (b0 b1 : Byte) (addr7 : BitVec 7) (trace : List TraceEntry) : Byte :=
  trace.foldl
    (fun v e =>
      match e.tx with
      | [m, t, h2, w] =>
        if m = b0 ∧ t = b1 ∧ byte2Addr h2 = addr7 ∧ byte2Dir h2 = cfg.dirWrite ∧ e.answer.isOk
        then w else v
      | _ => v)
    0x00#8

end Sys2Proof.Machine
end

