-- ==== Sys2Proof/Certificates/Slice0/Obligations.lean ====
section
/-! DEFINITION. The statements about the model, from the numbered rules of spec/. Nothing is proved here. -/

open Sys2Proof Sys2Proof.Machine

/-! ## Reset, decoding, encoding -/

/-- What reset leaves of the elements the spec gives a reset value (70_reset_and_hazards.md section 1, R210; the
values are the spec's decision D14): closed, idle, `K = 0`, `LAST_STATUS = Ok`, `CHUNKS_OK = 0`, nothing on the bus.
The elements R210 leaves unspecified hold values the model chose (log entry 2); nothing is said of them here. -/
def Obligations.ResetIsClosedIdleAndSilent : Prop :=
  State.reset.isOpen = false ∧ State.reset.busy = false ∧ State.reset.k = 0 ∧
    State.reset.lastStatus = .ok ∧ State.reset.chunksOk = 0 ∧ State.reset.trace = []

/-- The machine after reset meets the invariant of the machine (10_state.md section 7). -/
def Obligations.ResetMeetsInv : Prop := Inv State.reset

/-- Words written out from 30_encoding.md R91, R92 and R102 decode to the operations they stand for (the last two are
the header `01 03 AA` of 95_test_vectors.md under both values of `DIR_WRITE`). -/
def Obligations.SpecWordsDecode : Prop :=
  (∀ d m t a v n buf,
    decode d (.command ⟨0x00#8, m, t, a, v, n, buf⟩) = .ok .openBus ∧
    decode d (.command ⟨0x01#8, m, t, a, v, n, buf⟩) = .ok .closeBus ∧
    decode d (.command ⟨0x02#8, m, t, a, v, n, buf⟩) = .ok (.writeByte m t a v) ∧
    decode d (.command ⟨0x03#8, m, t, a, v, n, buf⟩) = .ok (.readByte m t a) ∧
    decode d (.command ⟨0x04#8, m, t, a, v, n, buf⟩) = .ok (.writeBurst m t a buf) ∧
    decode d (.command ⟨0x05#8, m, t, a, v, n, buf⟩) = .ok (.readBurst m t a n)) ∧
  decode true (.header 0x0103AA#24) = .ok (.encodeHeaderW 0x01#8 0x03#8 0x2A) ∧
  decode false (.header 0x0103AA#24) = .ok (.encodeHeaderR 0x01#8 0x03#8 0x2A)

/-- Decoding undoes encoding for every well-formed operation, all operands, either `DIR_WRITE` (30_encoding.md
sections 1 and 3): no bit of a record or header is dropped. -/
def Obligations.DecodeEncodeRoundTrip : Prop :=
  ∀ (d : Bool) (i : Instr), i.wf = true → decode d (encode d i) = .ok i

/-- Every 24-bit value is the header of exactly one encoder call (30_encoding.md R90, which the spec marks as derived):
what it decodes to encodes back to it and is within the representable range, and no other well-formed operation encodes
to it. -/
def Obligations.EveryHeaderWordIsOneHeader : Prop :=
  ∀ (d : Bool) (h : HeaderWord),
    encode d (decodeHeader d h) = .header h ∧ (decodeHeader d h).wf = true ∧
      ∀ i : Instr, i.wf = true → encode d i = .header h → i = decodeHeader d h

/-! ## The header encoder -/

/-- The encoder's result (40_header_encoder.md R110, with the spec's decisions D1, D2, D5): `InvalidAddress` exactly
for an address above 0x7F under `REJECT`, whatever the mode, target and direction; else mode, target, and the
direction bit above the low 7 address bits. `ENCODE_HEADER` completes in every state and shows its result on `HDR`
(log entry 9). -/
def Obligations.EncodeHeaderResult : Prop :=
  ∀ (m t : Byte) (a : Nat) (s : State),
    (exec (.encodeHeaderW m t a) s = .next
      { s with hdr :=
          if 0x7F < a ∧ s.cfg.addrOverflow = .reject then .invalidAddress
          else .header m t (BitVec.ofNat 8 (s.cfg.dirWrite.toNat * 128 + a % 128)) }) ∧
    (exec (.encodeHeaderR m t a) s = .next
      { s with hdr :=
          if 0x7F < a ∧ s.cfg.addrOverflow = .reject then .invalidAddress
          else .header m t (BitVec.ofNat 8 ((1 - s.cfg.dirWrite.toNat) * 128 + a % 128)) })

/-- The encoder is pure (40_header_encoder.md R111): from any two states with the same `DIR_WRITE` and `ADDR_OVERFLOW`
(the other two parameters, `mux_code` and `tgt_code`, are fixed functions) the same header comes, and nothing but the
encoder's output (which is no storage element, 10_state.md R29) changes: no state, and no bus transaction. -/
def Obligations.EncodeHeaderIsPure : Prop :=
  ∀ (i : Instr) (s s' u u' : State), i.isCommand = false →
    s.cfg.dirWrite = s'.cfg.dirWrite → s.cfg.addrOverflow = s'.cfg.addrOverflow →
    exec i s = .next u → exec i s' = .next u' →
      u.hdr = u'.hdr ∧ u = { s with hdr := u.hdr } ∧ u' = { s' with hdr := u'.hdr }

/-- A header identifies its call (40_header_encoder.md R112, which the spec marks as derived): for addresses up to
0x7F the encoder is injective and the header's fields give the operands back; under `MASK` an address and its low 7
bits have one header. -/
def Obligations.HeaderIsUnambiguous : Prop :=
  (∀ (cfg : Params) (m t m' t' : Byte) (a a' : Nat) (d d' : Direction), a ≤ 0x7F → a' ≤ 0x7F →
    encodeHeader cfg m t a d = encodeHeader cfg m' t' a' d' → m = m' ∧ t = t' ∧ a = a' ∧ d = d') ∧
  (∀ (cfg : Params) (m t : Byte) (a : Nat) (d : Direction), a ≤ 0x7F →
    ∃ b2, encodeHeader cfg m t a d = .header m t b2 ∧ dirOfBit cfg.dirWrite (byte2Dir b2) = d ∧
      (byte2Addr b2).toNat = a) ∧
  (∀ (cfg : Params) (m t : Byte) (a : Nat) (d : Direction), cfg.addrOverflow = .mask →
    encodeHeader cfg m t a d = encodeHeader cfg m t (a % 128) d)

/-! ## Single-byte transfers -/

/-- `WRITE_BYTE`, operation code 0x02, of an idle block (41_single_transfer.md R121): the operands are latched, `OPEN`
stays, and it completes in one of four ways: closed; unrepresentable address; the one transaction, header and value,
failed; the same transaction done. -/
def Obligations.WriteByteOutcome : Prop :=
  Op.writeByte.code = 0x02#8 ∧
  ∀ (s : State) (m t a v : Byte), s.busy = false →
    ∃ u, exec (.writeByte m t a v) s = .next u ∧ u.isOpen = s.isOpen ∧
      (u.cmd.op = .writeByte ∧ u.cmd.mux = m ∧ u.cmd.tgt = t ∧ u.cmd.addr = a ∧ u.cmd.val = v) ∧
      (s.isOpen = false →
        Completed s u [] { status := .notOpen, data := .absent, chunksOk := 0 }) ∧
      (s.isOpen = true → 0x7F < a.toNat ∧ s.cfg.addrOverflow = .reject →
        Completed s u [] { status := .invalidAddress, data := .absent, chunksOk := 0 }) ∧
      (s.isOpen = true → ¬(0x7F < a.toNat ∧ s.cfg.addrOverflow = .reject) →
        s.env.answer 0 = .fail →
        Completed s u
          [{ tx := (encodeHeader s.cfg m t a.toNat .write).bytes ++ [v], rxLen := 0, answer := .fail }]
          { status := .busIoError, data := .absent, chunksOk := 0 }) ∧
      (s.isOpen = true → ¬(0x7F < a.toNat ∧ s.cfg.addrOverflow = .reject) →
        s.env.answer 0 = .ok [] →
        Completed s u
          [{ tx := (encodeHeader s.cfg m t a.toNat .write).bytes ++ [v], rxLen := 0, answer := .ok [] }]
          { status := .ok, data := .absent, chunksOk := 0 })

/-- `READ_BYTE`, operation code 0x03, of an idle block (41_single_transfer.md R122): the operands are latched, `OPEN`
stays, and it completes in one of four ways: closed; unrepresentable address; the one transaction, the header alone,
failed; the same transaction brought one byte, which is in `RDATA` and in the response. On an error no byte is
delivered, and nothing is said of `RDATA`, which is unspecified. -/
def Obligations.ReadByteOutcome : Prop :=
  Op.readByte.code = 0x03#8 ∧
  ∀ (s : State) (m t a : Byte), s.busy = false →
    ∃ u, exec (.readByte m t a) s = .next u ∧ u.isOpen = s.isOpen ∧
      (u.cmd.op = .readByte ∧ u.cmd.mux = m ∧ u.cmd.tgt = t ∧ u.cmd.addr = a) ∧
      (s.isOpen = false →
        Completed s u [] { status := .notOpen, data := .absent, chunksOk := 0 }) ∧
      (s.isOpen = true → 0x7F < a.toNat ∧ s.cfg.addrOverflow = .reject →
        Completed s u [] { status := .invalidAddress, data := .absent, chunksOk := 0 }) ∧
      (s.isOpen = true → ¬(0x7F < a.toNat ∧ s.cfg.addrOverflow = .reject) →
        s.env.answer 1 = .fail →
        Completed s u
          [{ tx := (encodeHeader s.cfg m t a.toNat .read).bytes, rxLen := 1, answer := .fail }]
          { status := .busIoError, data := .absent, chunksOk := 0 }) ∧
      (s.isOpen = true → ¬(0x7F < a.toNat ∧ s.cfg.addrOverflow = .reject) →
        ∀ b, s.env.answer 1 = .ok [b] → u.rdata = b ∧
          Completed s u
            [{ tx := (encodeHeader s.cfg m t a.toNat .read).bytes, rxLen := 1, answer := .ok [b] }]
            { status := .ok, data := .byte b, chunksOk := 0 })

/-- A single-byte transfer that passes its checks makes exactly one bus transaction, one that does not makes none
(41_single_transfer.md R123); both complete. -/
def Obligations.SingleTransferIsOneTransaction : Prop :=
  ∀ (s : State) (m t a v : Byte) (i : Instr),
    s.busy = false → (i = .writeByte m t a v ∨ i = .readByte m t a) →
    (s.isOpen = true ∧ ¬(0x7F < a.toNat ∧ s.cfg.addrOverflow = .reject) →
      ∃ u e, exec i s = .next u ∧ u.trace = s.trace ++ [e]) ∧
    (¬(s.isOpen = true ∧ ¬(0x7F < a.toNat ∧ s.cfg.addrOverflow = .reject)) →
      ∃ u, exec i s = .next u ∧ u.trace = s.trace)

/-- A `Fail` ends a single-byte transfer at once with `BusIoError`; the transaction is not issued again
(41_single_transfer.md R125). -/
def Obligations.FailedSingleTransferIsNotRetried : Prop :=
  ∀ (s : State) (m t a v : Byte) (i : Instr) (n : Nat),
    s.busy = false → s.isOpen = true → ¬(0x7F < a.toNat ∧ s.cfg.addrOverflow = .reject) →
    ((i = .writeByte m t a v ∧ n = 0) ∨ (i = .readByte m t a ∧ n = 1)) → s.env.answer n = .fail →
      ∃ u e, exec i s = .next u ∧ u.trace = s.trace ++ [e] ∧ e.answer = .fail ∧
        u.responses = s.responses ++ [{ status := .busIoError, data := .absent, chunksOk := 0 }] ∧
        u.busy = false

/-- Write then read back over an echo fixture (41_single_transfer.md R126, which the spec marks as derived and as a
property of block plus fixture): after a `WRITE_BYTE` of `v` that responds `Ok`, a `READ_BYTE` of the same address,
answered with what the fixture of 95_test_vectors.md then holds there, delivers `v`. What the fixture makes of earlier
frames answered `Fail`, which the spec leaves unknown (log entry 27), plays no part: the last frame to the address is the
write that responded `Ok`. -/
def Obligations.WriteThenReadEchoes : Prop :=
  ∀ (s u : State) (m t a v : Byte), s.busy = false →
    exec (.writeByte m t a v) s = .next u → u.lastStatus = .ok →
    u.env.answer 1 = .ok [regfileValue s.cfg m t (BitVec.ofNat 7 a.toNat) u.trace] →
      ∃ w, exec (.readByte m t a) u = .next w ∧ w.rdata = v ∧
        w.responses = u.responses ++ [{ status := .ok, data := .byte v, chunksOk := 0 }]

/-! ## Bursts -/

/-- The chunk arithmetic and its consequences (42_burst.md R141). -/
def Obligations.ChunkArithmetic : Prop :=
  ∀ (cfg : Params) (n : Nat),
    chunkCount cfg n = (n + cfg.chunkMax - 1) / cfg.chunkMax ∧
    (∀ k, chunkOff cfg k = k * cfg.chunkMax ∧
      chunkLen cfg n k = min cfg.chunkMax (n - k * cfg.chunkMax)) ∧
    chunkCount cfg 0 = 0 ∧
    (∀ k, k + 1 < chunkCount cfg n → chunkLen cfg n k = cfg.chunkMax) ∧
    (0 < n → 1 ≤ chunkLen cfg n (chunkCount cfg n - 1) ∧
      chunkLen cfg n (chunkCount cfg n - 1) ≤ cfg.chunkMax) ∧
    ((List.range (chunkCount cfg n)).map (chunkLen cfg n)).sum = n ∧
    (∀ i < n, ∃! k, k < chunkCount cfg n ∧ chunkOff cfg k ≤ i ∧
      i < chunkOff cfg k + chunkLen cfg n k) ∧
    (∀ k < chunkCount cfg n, chunkOff cfg k + chunkLen cfg n k ≤ n) ∧
    (cfg.chunkMax ∣ n → chunkCount cfg n = n / cfg.chunkMax ∧
      ∀ k < chunkCount cfg n, chunkLen cfg n k = cfg.chunkMax) ∧
    (0 < n → n < cfg.chunkMax → chunkCount cfg n = 1 ∧ chunkLen cfg n 0 = n)

/-- The one comparison of a burst's check covers every chunk (42_burst.md R143, the spec's decision D10): it passes
exactly when no chunk's header can fail. -/
def Obligations.BurstCheckCoversEveryChunk : Prop :=
  ∀ (cfg : Params) (m t a : Byte) (n : Nat) (d : Direction), 0 < n →
    (burstRejected cfg a n = false ↔
      ∀ k < chunkCount cfg n, encodeHeader cfg m t (a.toNat + k * cfg.stride) d ≠ .invalidAddress)

/-- `WRITE_BURST`, operation code 0x04, of an idle block (42_burst.md R144): the operands are latched, `WBUF` is the
buffer, `OPEN` stays, and it completes in one of five ways: closed; length 0; an address out of range, before any
transaction; chunk `j` failed after chunks 0 to `j - 1` succeeded; all chunks done, in order, each with its own
header. -/
def Obligations.WriteBurstOutcome : Prop :=
  Op.writeBurst.code = 0x04#8 ∧
  ∀ (s : State) (m t a : Byte) (buf : List Byte), s.busy = false →
    ∃ u, exec (.writeBurst m t a buf) s = .next u ∧ u.isOpen = s.isOpen ∧ u.wbuf = buf ∧
      (u.cmd.op = .writeBurst ∧ u.cmd.mux = m ∧ u.cmd.tgt = t ∧ u.cmd.addr = a ∧
        u.cmd.len = buf.length) ∧
      (s.isOpen = false →
        Completed s u [] { status := .notOpen, data := .absent, chunksOk := 0 }) ∧
      (s.isOpen = true → buf = [] →
        Completed s u [] { status := .ok, data := .absent, chunksOk := 0 }) ∧
      (s.isOpen = true → buf ≠ [] → s.cfg.addrOverflow = .reject →
        0x7F < a.toNat + (chunkCount s.cfg buf.length - 1) * s.cfg.stride →
        Completed s u [] { status := .invalidAddress, data := .absent, chunksOk := 0 }) ∧
      (∀ j, s.isOpen = true →
        ¬(s.cfg.addrOverflow = .reject ∧
          0x7F < a.toNat + (chunkCount s.cfg buf.length - 1) * s.cfg.stride) →
        j < chunkCount s.cfg buf.length → chunksAnswered s.cfg s.env .write buf.length j →
        chunkAnswer s.cfg s.env .write buf.length j = .fail →
        u.nch = chunkCount s.cfg buf.length ∧ u.k = j ∧
          Completed s u (chunkEntries s.cfg s.env .write m t a buf buf.length (j + 1))
            { status := .partialBurstFailure, data := .absent, chunksOk := j }) ∧
      (s.isOpen = true → buf ≠ [] →
        ¬(s.cfg.addrOverflow = .reject ∧
          0x7F < a.toNat + (chunkCount s.cfg buf.length - 1) * s.cfg.stride) →
        chunksAnswered s.cfg s.env .write buf.length (chunkCount s.cfg buf.length) →
        u.nch = chunkCount s.cfg buf.length ∧ u.k = chunkCount s.cfg buf.length ∧
          Completed s u
            (chunkEntries s.cfg s.env .write m t a buf buf.length (chunkCount s.cfg buf.length))
            { status := .ok, data := .absent, chunksOk := 0 })

/-- `READ_BURST`, operation code 0x05, of an idle block (42_burst.md R145): the operands are latched, `OPEN` stays,
and it completes in one of five ways, as a write. When all chunks are done `RBUF` and the response hold the bytes
received, in order; when chunk `j` fails nothing is delivered, and nothing is said of `RBUF`, which is unspecified
(R148). -/
def Obligations.ReadBurstOutcome : Prop :=
  Op.readBurst.code = 0x05#8 ∧
  ∀ (s : State) (m t a : Byte) (n : Nat), s.busy = false →
    ∃ u, exec (.readBurst m t a n) s = .next u ∧ u.isOpen = s.isOpen ∧
      (u.cmd.op = .readBurst ∧ u.cmd.mux = m ∧ u.cmd.tgt = t ∧ u.cmd.addr = a ∧ u.cmd.len = n) ∧
      (s.isOpen = false →
        Completed s u [] { status := .notOpen, data := .absent, chunksOk := 0 }) ∧
      (s.isOpen = true → n = 0 →
        Completed s u [] { status := .ok, data := .buffer [], chunksOk := 0 }) ∧
      (s.isOpen = true → 0 < n → s.cfg.addrOverflow = .reject →
        0x7F < a.toNat + (chunkCount s.cfg n - 1) * s.cfg.stride →
        Completed s u [] { status := .invalidAddress, data := .absent, chunksOk := 0 }) ∧
      (∀ j, s.isOpen = true →
        ¬(s.cfg.addrOverflow = .reject ∧
          0x7F < a.toNat + (chunkCount s.cfg n - 1) * s.cfg.stride) →
        j < chunkCount s.cfg n → chunksAnswered s.cfg s.env .read n j →
        chunkAnswer s.cfg s.env .read n j = .fail →
        u.nch = chunkCount s.cfg n ∧ u.k = j ∧
          Completed s u (chunkEntries s.cfg s.env .read m t a [] n (j + 1))
            { status := .partialBurstFailure, data := .absent, chunksOk := j }) ∧
      (s.isOpen = true → 0 < n →
        ¬(s.cfg.addrOverflow = .reject ∧
          0x7F < a.toNat + (chunkCount s.cfg n - 1) * s.cfg.stride) →
        chunksAnswered s.cfg s.env .read n (chunkCount s.cfg n) →
        u.nch = chunkCount s.cfg n ∧ u.k = chunkCount s.cfg n ∧
          u.rbuf = chunksReceived s.cfg s.env .read n (chunkCount s.cfg n) ∧ u.rbuf.length = n ∧
          Completed s u (chunkEntries s.cfg s.env .read m t a [] n (chunkCount s.cfg n))
            { status := .ok, data := .buffer u.rbuf, chunksOk := 0 })

/-- Reconstruction (42_burst.md R149, which the spec marks as derived): the transactions of a `WRITE_BURST` that
responds `Ok` are `ceil(N / C)`; their data, headers dropped, concatenate to the buffer; transaction `k` has the mode,
the target and the write header byte of `addr(k)`. -/
def Obligations.WriteBurstReconstructsBuffer : Prop :=
  ∀ (s u : State) (m t a : Byte) (buf : List Byte), s.busy = false →
    exec (.writeBurst m t a buf) s = .next u → u.lastStatus = .ok →
      ∃ es, u.trace = s.trace ++ es ∧ es.length = chunkCount s.cfg buf.length ∧
        es.flatMap TraceEntry.data = buf ∧
        ∀ (k : Nat) (hk : k < es.length), ∃ b2, es[k].tx.take 3 = [m, t, b2] ∧
          byte2Dir b2 = s.cfg.dirWrite ∧
          (byte2Addr b2).toNat = (a.toNat + k * s.cfg.stride) % 128

/-- Order inside a burst (20_memory.md R63): chunk `k` of the entries moves the bytes from offset `k * C` on; the data
of one successful `WRITE_BURST` concatenate in trace order to `WBUF`, the received bytes of one successful
`READ_BURST` to the buffer delivered, which has the length asked for. -/
def Obligations.BurstKeepsByteOrder : Prop :=
  (∀ (s u : State) (m t a : Byte) (buf : List Byte), s.busy = false →
    exec (.writeBurst m t a buf) s = .next u → u.lastStatus = .ok →
      ∃ es, u.trace = s.trace ++ es ∧ es.flatMap TraceEntry.data = u.wbuf ∧ u.wbuf = buf ∧
        ∀ (k : Nat) (hk : k < es.length),
          es[k].data = (u.wbuf.drop (k * s.cfg.chunkMax)).take s.cfg.chunkMax) ∧
  (∀ (s u : State) (m t a : Byte) (n : Nat), s.busy = false →
    exec (.readBurst m t a n) s = .next u → u.lastStatus = .ok →
      ∃ es bytes, u.trace = s.trace ++ es ∧
        es.flatMap (fun e => e.answer.received) = bytes ∧ bytes.length = n ∧
        u.responses = s.responses ++ [{ status := .ok, data := .buffer bytes, chunksOk := 0 }] ∧
        ∀ (k : Nat) (hk : k < es.length),
          es[k].answer.received = (bytes.drop (k * s.cfg.chunkMax)).take s.cfg.chunkMax)

/-- What `PartialBurstFailure` reports (60_exceptions.md section 1, R185 with the spec's decision D11): the chunks
answered `Ok` before the one that failed, each of them full, none after it. -/
def Obligations.PartialBurstFailureCounts : Prop :=
  ∀ (s u : State) (i : Instr) (m t a : Byte) (buf : List Byte) (n : Nat), s.busy = false →
    (i = .writeBurst m t a buf ∧ n = buf.length ∨ i = .readBurst m t a n) →
    exec i s = .next u → u.lastStatus = .partialBurstFailure →
      ∃ es e, u.trace = s.trace ++ es ++ [e] ∧ e.answer = .fail ∧
        (∀ x ∈ es, x.answer.isOk = true ∧
          x.data.length + x.answer.received.length = s.cfg.chunkMax) ∧
        u.chunksOk = es.length ∧ u.chunksOk < chunkCount s.cfg n

/-! ## Session -/

/-- `OPEN` of an idle block in its three cases (43_session.md, OPEN, with the spec's decision D13): already open; the
device available; not available. No bus activity. How the draw is held, and that the other latches keep their values,
are the model's (log entries 3 and 21). -/
def Obligations.OpenOutcome : Prop :=
  ∀ s : State, s.busy = false →
    (s.isOpen = true →
      exec .openBus s = .next (State.raise .deviceUnavailable 0
        { s with cmd := { s.cmd with op := .openBus } })) ∧
    (s.isOpen = false → s.env.avail = true →
      exec .openBus s = .next (State.respond .absent
        { s with cmd := { s.cmd with op := .openBus }, env := s.env.afterAvail, isOpen := true })) ∧
    (s.isOpen = false → s.env.avail = false →
      exec .openBus s = .next (State.raise .deviceUnavailable 0
        { s with cmd := { s.cmd with op := .openBus }, env := s.env.afterAvail }))

/-- `CLOSE` of an idle block (43_session.md, CLOSE, with the spec's decision D13): on an open block it closes and
answers `Ok`; on a closed one the step has no result. The other latches keep their values (log entry 21). -/
def Obligations.CloseOutcome : Prop :=
  ∀ s : State, s.busy = false →
    (s.isOpen = true →
      exec .closeBus s = .next (State.respond .absent
        { s with cmd := { s.cmd with op := .closeBus }, isOpen := false })) ∧
    (s.isOpen = false → exec .closeBus s = .fault .closeWhileClosed)

/-- On a closed block every transfer is rejected and the bus stays silent (43_session.md R174, 60_exceptions.md R186,
the spec's decision D8): whatever its operands, status `NotOpen`, no transaction, no answer taken from the environment,
and no buffer written: `RBUF` stays (`WBUF` is the host's; its capture at acceptance is log entry 13). -/
def Obligations.ClosedBlockStaysOffTheBus : Prop :=
  ∀ (s : State) (i : Instr), s.busy = false → s.isOpen = false → i.isTransfer = true →
    ∃ u, exec i s = .next u ∧ u.trace = s.trace ∧ u.env.answers = s.env.answers ∧
      u.isOpen = false ∧ u.busy = false ∧ u.lastStatus = .notOpen ∧ u.rbuf = s.rbuf ∧
      u.responses = s.responses ++ [{ status := .notOpen, data := .absent, chunksOk := 0 }]

/-! ## Completion and errors -/

/-- What `raise <Status>` does (60_exceptions.md section 4): the status, the count only with `PartialBurstFailure`, the
response without data, `BUSY <- 0`, and no transaction; the session, the configuration, the latches, the sequencer's
counters, `WBUF` and `HDR` stay. `RDATA` and `RBUF` are unspecified after an error (10_state.md R33), but `NotOpen`
writes no buffer (R186): `RBUF` stays. -/
def Obligations.RaiseEndsTheCommand : Prop :=
  ∀ (s : State) (st : Status) (k : Nat), st ≠ .ok →
    (s.raise st k).lastStatus = st ∧
    (s.raise st k).chunksOk = (if st = .partialBurstFailure then k else 0) ∧
    (s.raise st k).responses = s.responses ++
      [{ status := st, data := .absent, chunksOk := if st = .partialBurstFailure then k else 0 }] ∧
    (s.raise st k).busy = false ∧ (s.raise st k).trace = s.trace ∧
    (s.raise st k).isOpen = s.isOpen ∧ (s.raise st k).cfg = s.cfg ∧ (s.raise st k).cmd = s.cmd ∧
    (s.raise st k).k = s.k ∧ (s.raise st k).nch = s.nch ∧ (s.raise st k).wbuf = s.wbuf ∧
    (s.raise st k).hdr = s.hdr ∧ (st = .notOpen → (s.raise st k).rbuf = s.rbuf) ∧
    (s.raise st k).host = s.host ∧
    (s.raise st k).env.answers = s.env.answers ∧ (s.raise st k).env.avails = s.env.avails

/-- Every command an idle block takes completes with exactly one response, which the status registers repeat, and
leaves the block idle (10_state.md R31, R35; 30_encoding.md R93); the one command without a result is `CLOSE` on a
closed block. That every command completes is a termination claim: it rests on the spec's assumption D25
(70_reset_and_hazards.md R220) that the environment answers every transaction, log entry 7. -/
def Obligations.EveryCommandGetsOneResponse : Prop :=
  ∀ (s : State) (i : Instr), s.busy = false → i.isCommand = true →
    ¬(i = .closeBus ∧ s.isOpen = false) →
      ∃ u r, exec i s = .next u ∧ u.responses = s.responses ++ [r] ∧ r.wf ∧
        u.lastStatus = r.status ∧ u.chunksOk = r.chunksOk ∧ u.busy = false

/-- No error is sticky (60_exceptions.md R192): a command leaves the block idle, ready for the next; what it does is
the same whatever the last command's status was; and a command that ended in `BusIoError` goes to the bus again when
issued again. -/
def Obligations.NoErrorIsSticky : Prop :=
  (∀ (s u : State) (i : Instr), s.busy = false → exec i s = .next u → u.busy = false) ∧
  (∀ (s : State) (i : Instr) (st : Status) (k : Nat), s.busy = false → i.isCommand = true →
    exec i { s with lastStatus := st, chunksOk := k } = exec i s) ∧
  (∀ (s u : State) (i : Instr), s.busy = false → i.isCommand = true →
    exec i s = .next u → u.lastStatus = .busIoError →
      ∃ w e, exec i u = .next w ∧ w.trace = u.trace ++ [e])

/-- No failure is hidden and nothing is retried (60_exceptions.md R193): a failed transaction is the last of its
command and the command reports a bus error; a command that reports `Ok` had every transaction answered `Ok`. -/
def Obligations.FailureIsNeverHidden : Prop :=
  ∀ (s u : State) (i : Instr), s.busy = false → i.isCommand = true → exec i s = .next u →
    ∃ es r, u.trace = s.trace ++ es ∧ u.responses = s.responses ++ [r] ∧
      (r.status = .ok → ∀ e ∈ es, e.answer.isOk = true) ∧
      (∀ (j : Nat) (hj : j < es.length), es[j].answer = .fail →
        j + 1 = es.length ∧ r.status.isBusError = true)

/-- An environment's `Ok` brings exactly the bytes asked for (20_memory.md R56, the spec's decision D15), and one
transaction is one trace entry. -/
def Obligations.TransactionIsOneEntryOfItsLength : Prop :=
  (∀ (e : Env) (n : Nat) (rx : List Byte), e.answer n = .ok rx → rx.length = n) ∧
  (∀ (s : State) (tx : List Byte) (n : Nat), ∃ ans, (s.busTxn tx n).trace =
    s.trace ++ [{ tx := tx, rxLen := n, answer := ans }] ∧ ans = s.env.answer n)

/-- The status codes (60_exceptions.md section 1, the spec's decision D7) are the numbers of the table, one to a
status. -/
def Obligations.StatusCodesAreDistinct : Prop :=
  (Status.ok.code = 0#3 ∧ Status.deviceUnavailable.code = 1#3 ∧ Status.invalidAddress.code = 2#3 ∧
    Status.busIoError.code = 3#3 ∧ Status.partialBurstFailure.code = 4#3 ∧ Status.notOpen.code = 5#3) ∧
  ∀ a b : Status, a.code = b.code → a = b

/-! ## Frames -/

/-- What a single-byte transfer leaves unchanged (41_single_transfer.md, "State written"): the session, the
configuration, the chunk counters (R28), `CMD_LEN`, `WBUF`, the host's and the environment's other inputs; the trace
only grows; `RBUF` unless the command failed (R33) with another status than `NotOpen` (60_exceptions.md R186); for a
write that did not fail `RDATA`; for a read `CMD_VAL` (R25). Only the length-1 frame is sent, so no other transaction
appears. That unused latches and `HDR` keep their values is the model's
inference (log entries 9 and 21). -/
def Obligations.SingleTransferFrame : Prop :=
  ∀ (s u : State) (m t a v : Byte) (i : Instr),
    (i = .writeByte m t a v ∨ i = .readByte m t a) → exec i s = .next u →
      u.cfg = s.cfg ∧ u.isOpen = s.isOpen ∧ u.phase = s.phase ∧ u.k = s.k ∧ u.nch = s.nch ∧
      u.wbuf = s.wbuf ∧ u.host = s.host ∧ u.stepwise = s.stepwise ∧ u.env.avails = s.env.avails ∧
      u.cmd.len = s.cmd.len ∧ s.trace <+: u.trace ∧ u.trace.length ≤ s.trace.length + 1 ∧
      (i = .readByte m t a → u.cmd.val = s.cmd.val) ∧
      (u.lastStatus = .ok ∨ u.lastStatus = .notOpen → u.rbuf = s.rbuf) ∧
      (u.lastStatus = .ok → i = .writeByte m t a v → u.rdata = s.rdata) ∧
      (s.isOpen = false → u.hdr = s.hdr)

/-- What a burst leaves unchanged (42_burst.md, "State written"): the session, the configuration, `CMD_VAL` (R25), the
host's and the environment's other inputs; the trace only grows; unless the command failed (R33) `RDATA`, and for a
write `RBUF`; after `NotOpen` `RBUF` (60_exceptions.md R186); for a read `WBUF`; and `K`, `NCH`, `HDR` when it ends before
computing them (R28). That unused latches and `HDR` keep their values is the model's inference (log entries 9 and 21),
and so is the last clause: a burst an idle block refuses with `InvalidAddress` has computed `NCH` (conflict C11, log
entry 19). -/
def Obligations.BurstFrame : Prop :=
  ∀ (s u : State) (m t a : Byte) (buf : List Byte) (n : Nat) (i : Instr),
    (i = .writeBurst m t a buf ∧ n = buf.length ∨ i = .readBurst m t a n) → exec i s = .next u →
      u.cfg = s.cfg ∧ u.isOpen = s.isOpen ∧ u.phase = s.phase ∧ u.host = s.host ∧
      u.stepwise = s.stepwise ∧ u.env.avails = s.env.avails ∧ u.cmd.val = s.cmd.val ∧
      s.trace <+: u.trace ∧
      (u.lastStatus = .ok → u.rdata = s.rdata ∧ (i = .writeBurst m t a buf → u.rbuf = s.rbuf)) ∧
      (u.lastStatus = .notOpen → u.rbuf = s.rbuf) ∧
      (i = .readBurst m t a n → u.wbuf = s.wbuf) ∧
      (s.isOpen = false ∨ n = 0 → u.k = s.k ∧ u.nch = s.nch ∧ u.hdr = s.hdr ∧ u.trace = s.trace) ∧
      (u.lastStatus = .invalidAddress → u.k = s.k ∧ u.hdr = s.hdr ∧ u.trace = s.trace) ∧
      (s.busy = false → u.lastStatus = .invalidAddress → u.nch = chunkCount s.cfg n)

/-- What the session operations leave unchanged (43_session.md, "State written"): everything but `OPEN`, `CMD_OP`, the
status registers, the response and the draw of `avail`; `RDATA` and `RBUF` unless the command failed (10_state.md
R33). The bus stays silent. That unused latches and `HDR` keep their values is the model's inference (log entries 9 and
21). -/
def Obligations.SessionFrame : Prop :=
  ∀ (s u : State) (i : Instr), (i = .openBus ∨ i = .closeBus) → exec i s = .next u →
    u.cfg = s.cfg ∧ u.phase = s.phase ∧ u.k = s.k ∧ u.nch = s.nch ∧ u.wbuf = s.wbuf ∧
    u.hdr = s.hdr ∧ u.trace = s.trace ∧ u.host = s.host ∧ u.stepwise = s.stepwise ∧
    u.env.answers = s.env.answers ∧ u.cmd = { s.cmd with op := u.cmd.op } ∧
    (u.lastStatus = .ok → u.rdata = s.rdata ∧ u.rbuf = s.rbuf)

/-! ## The step -/

/-- An idle block runs the operation that the request at its command port spells, after taking the request
(10_state.md section 5). The list of coming requests and the reading of one step a command are the model's (log
entries 1 and 8). -/
def Obligations.StepRunsPresentedOperation : Prop :=
  ∀ (s : State) (w : Request) (rest : List Request) (i : Instr),
    s.busy = false → s.stepwise = false → s.host = w :: rest → decode s.cfg.dirWrite w = .ok i →
      step s = exec i { s with host := rest }

/-- With the step-by-step reading chosen (log entry 8) an idle block takes the request and does step 1 of 42_burst.md
R150; with nothing presented it waits (70_reset_and_hazards.md section 1, log entry 22); a reserved operation code is
refused and names itself (30_encoding.md R97, the spec's decision D24). -/
def Obligations.IdleBlockAcceptsWaitsOrRefuses : Prop :=
  (∀ (s : State) (w : Request) (rest : List Request) (i : Instr),
    s.busy = false → s.stepwise = true → s.host = w :: rest → decode s.cfg.dirWrite w = .ok i →
      step s = acceptStep i { s with host := rest }) ∧
  (∀ s : State, s.busy = false → s.host = [] → step s = .next s) ∧
  (∀ (s : State) (r : CommandRecord) (rest : List Request),
    s.busy = false → s.host = .command r :: rest → 6 ≤ r.op.toNat →
      step s = .refused (.reservedOp r.op))

/-- A busy block accepts nothing (70_reset_and_hazards.md R213, the spec's decision D19): its step goes on with the
command in progress, the host's requests stay, and the operand latches and the captured buffer keep their values
(10_state.md R20, R41 e). What `exec` of a command does on a busy block, which no step asks for, is the model's (log
entry 23). -/
def Obligations.BusyBlockAcceptsNothing : Prop :=
  ∀ s : State, s.busy = true →
    (∃ u, step s = .next u ∧ u.host = s.host ∧ u.cmd = s.cmd ∧ u.wbuf = s.wbuf) ∧
    ∀ i : Instr, i.isCommand = true → exec i s = .next s

/-- Every step keeps the invariant of the machine, from every state that has it: legal transactions and responses, the
status registers in agreement with the last response, and 10_state.md R41 (which the spec marks as derived) at every
place of the sequencer: open while a transfer has a transaction out or answered, also while `BusIoError` or
`PartialBurstFailure` is being completed (a); `K <= NCH` in a burst that passed its checks, up to its completion (b); and
exactly the bytes of index below `K * C`, capped at `N`, sent or stored (c). -/
def Obligations.StepKeepsInv : Prop :=
  ∀ s u : State, Inv s → step s = .next u → Inv u

/-- Every step only appends to the bus trace and to the responses, leaves the configuration alone and takes at most
the one request presented (10_state.md R36, 20_memory.md R62, 70_reset_and_hazards.md R214). -/
def Obligations.StepOnlyAppends : Prop :=
  ∀ s u : State, step s = .next u →
    u.cfg = s.cfg ∧ s.trace <+: u.trace ∧ s.responses <+: u.responses ∧
      u.responses.length ≤ s.responses.length + 1 ∧ u.stepwise = s.stepwise ∧
      (u.host = s.host ∨ u.host = s.host.tail)

/-- `OPEN` changes only where a successful `OPEN` or `CLOSE` completes (10_state.md R30, R41 d): no transfer and no
error changes it, and the bus is silent in that step. -/
def Obligations.OnlySessionOperationsMoveOpen : Prop :=
  ∀ s u : State, step s = .next u → u.isOpen ≠ s.isOpen →
    u.cmd.op = (if u.isOpen = true then .openBus else .closeBus) ∧ u.lastStatus = .ok ∧
      u.busy = false ∧ u.trace = s.trace ∧ ∃ r, u.responses = s.responses ++ [r] ∧ r.status = .ok

/-- The two readings of a command agree (10_state.md R43, which the spec marks as derived): the steps of 42_burst.md
R150, taken one at a time, reach the very state, or the fault, that the whole command gives, within two steps a
transaction and two more. The choice between the readings is the model's (log entry 8), and so is how `OPEN` and `CLOSE`
step, on which R150 is silent (log entry 25); that the steps reach an end rests on the spec's assumption D25 (log
entry 7). -/
def Obligations.StepByStepAgreesWithWhole : Prop :=
  ∀ (s : State) (w : Request) (rest : List Request) (i : Instr),
    s.busy = false → s.stepwise = true → s.host = w :: rest → decode s.cfg.dirWrite w = .ok i →
      ∃ n, 1 ≤ n ∧ n ≤ 2 * commandChunks s.cfg i + 2 ∧
        Sys2Proof.core.run n s = exec i { s with host := rest }

/-- Every command in progress completes (70_reset_and_hazards.md R220, under the spec's assumption D25, log entry 7,
that the environment answers every transaction): within `stepsLeft` steps the block is idle with one more response. -/
def Obligations.CommandInProgressCompletes : Prop :=
  ∀ s : State, Inv s → s.busy = true →
    ∃ n u r, n ≤ stepsLeft s ∧ Sys2Proof.core.run n s = .next u ∧ u.busy = false ∧
      u.host = s.host ∧ u.responses = s.responses ++ [r]

/-- What the outside sees of a command does not depend on what the spec leaves unspecified or internal (10_state.md
R43, R44): two idle states that agree on the configuration, the session and the environment give the same transactions
and the same response, whatever their latches, counters, buffers, status registers and `HDR` hold. So no reset value
the model chose (log entry 2) is ever read. That both commands complete rests on the spec's assumption D25 (log
entry 7). -/
def Obligations.HiddenStateIsUnobservable : Prop :=
  ∀ (s s' : State) (i : Instr), s.busy = false → s'.busy = false →
    s.cfg = s'.cfg → s.isOpen = s'.isOpen → s.env = s'.env → i.isCommand = true →
    ¬(i = .closeBus ∧ s.isOpen = false) →
      ∃ u u' es r, exec i s = .next u ∧ exec i s' = .next u' ∧
        u.trace = s.trace ++ es ∧ u'.trace = s'.trace ++ es ∧
        u.responses = s.responses ++ [r] ∧ u'.responses = s'.responses ++ [r] ∧
        u.isOpen = u'.isOpen ∧ u.env = u'.env
end

