-- ==== Sys2Proof/Laws/Operands.lean ====
section
/-! SUPPORT. What the operand assembly computes: header fields, the encoder, chunk arithmetic, the environment's answers. -/

namespace Sys2Proof.Machine

/-! ## Header fields -/

@[simp] theorem byte2Dir_headerByte2 (d : Bool) (a : BitVec 7) : byte2Dir (headerByte2 d a) = d := by
  revert d a; decide

@[simp] theorem byte2Addr_headerByte2 (d : Bool) (a : BitVec 7) : byte2Addr (headerByte2 d a) = a := by
  revert d a; decide

@[simp] theorem headerByte2_of_fields (b : Byte) : headerByte2 (byte2Dir b) (byte2Addr b) = b := by
  revert b; decide

@[simp] theorem headerB0_headerWord (b0 b1 b2 : Byte) : headerB0 (headerWord b0 b1 b2) = b0 := by
  apply BitVec.eq_of_getLsbD_eq
  intro i hi
  have h1 : ¬ 16 + i < 16 := by omega
  have h2 : 16 + i < 24 := by omega
  have h3 : 8 ≤ 16 + i - 8 := by omega
  have h4 : 8 ≤ 16 + i := by omega
  simp [headerB0, headerWord, hi, h1, h2, BitVec.getLsbD_of_ge _ _ h3, BitVec.getLsbD_of_ge _ _ h4]

@[simp] theorem headerB1_headerWord (b0 b1 b2 : Byte) : headerB1 (headerWord b0 b1 b2) = b1 := by
  apply BitVec.eq_of_getLsbD_eq
  intro i hi
  have h1 : 8 + i < 16 := by omega
  have h2 : 8 + i < 24 := by omega
  simp [headerB1, headerWord, hi, h1, h2]

@[simp] theorem headerB2_headerWord (b0 b1 b2 : Byte) : headerB2 (headerWord b0 b1 b2) = b2 := by
  apply BitVec.eq_of_getLsbD_eq
  intro i hi
  have h1 : i < 16 := by omega
  have h2 : i < 24 := by omega
  simp [headerB2, headerWord, hi, h1, h2]

@[simp] theorem headerWord_of_bytes (h : HeaderWord) :
    headerWord (headerB0 h) (headerB1 h) (headerB2 h) = h := by
  apply BitVec.eq_of_getLsbD_eq
  intro i hi
  simp only [headerB0, headerB1, headerB2, headerWord, BitVec.getLsbD_or, BitVec.getLsbD_shiftLeft,
    BitVec.getLsbD_setWidth, BitVec.getLsbD_extractLsb', hi, decide_true, Bool.true_and]
  by_cases h8 : i < 8
  · have : i < 16 := by omega
    simp [h8, this]
  · by_cases h16 : i < 16
    · have : i - 8 < 8 := by omega
      have e : 8 + (i - 8) = i := by omega
      have : i - 8 < 24 := by omega
      simp [*]
    · have : i - 16 < 8 := by omega
      have e : 16 + (i - 16) = i := by omega
      have : ¬ i - 8 < 8 := by omega
      have : i - 16 < 24 := by omega
      simp [*]

@[simp] theorem dirOfBit_dirBit (w : Bool) (d : Direction) : dirOfBit w (dirBit w d) = d := by
  cases w <;> cases d <;> rfl

@[simp] theorem dirBit_dirOfBit (w b : Bool) : dirBit w (dirOfBit w b) = b := by
  cases w <;> cases b <;> rfl

/-! ## The encoder -/

theorem encodeHeader_invalid_iff (cfg : Params) (m t : Byte) (a : Nat) (d : Direction) :
    encodeHeader cfg m t a d = .invalidAddress ↔ 0x7F < a ∧ cfg.addrOverflow = .reject := by
  unfold encodeHeader; split <;> simp_all

/-- What the encoder answers when it does not reject (40_header_encoder.md R110). -/
theorem encodeHeader_eq_header {cfg : Params} {m t : Byte} {a : Nat} {d : Direction}
    (h : encodeHeader cfg m t a d ≠ .invalidAddress) :
    encodeHeader cfg m t a d =
      .header m t (headerByte2 (dirBit cfg.dirWrite d) (BitVec.ofNat 7 a)) := by
  unfold encodeHeader at h ⊢; split <;> simp_all [muxCode, tgtCode]

/-- The header of a header is the header, and its bytes are three. -/
theorem HeaderOut.bytes_length {h : HeaderOut} (hh : h ≠ .invalidAddress) : h.bytes.length = 3 := by
  cases h <;> simp_all [HeaderOut.bytes]

/-! ## Chunk arithmetic (42_burst.md R141) -/

theorem chunkCount_pos {cfg : Params} {n : Nat} (h : 0 < n) : 0 < chunkCount cfg n := by
  have := cfg.chunkMax_pos
  exact Nat.div_pos (by omega) (by omega)

@[simp] theorem chunkCount_zero (cfg : Params) : chunkCount cfg 0 = 0 := by
  have := cfg.chunkMax_pos
  exact Nat.div_eq_of_lt (by omega)

theorem lt_chunkCount_iff {cfg : Params} {n k : Nat} : k < chunkCount cfg n ↔ chunkOff cfg k < n := by
  have := cfg.chunkMax_pos
  unfold chunkCount chunkOff
  rw [Nat.lt_iff_add_one_le, Nat.le_div_iff_mul_le (by omega), Nat.add_mul]
  omega

theorem le_chunkOff_chunkCount (cfg : Params) (n : Nat) : n ≤ chunkOff cfg (chunkCount cfg n) := by
  have := (lt_chunkCount_iff (cfg := cfg) (n := n) (k := chunkCount cfg n)).not
  omega

theorem chunkOff_succ (cfg : Params) (k : Nat) :
    chunkOff cfg (k + 1) = chunkOff cfg k + cfg.chunkMax := by
  simp [chunkOff, Nat.add_mul]

theorem chunkLen_pos {cfg : Params} {n k : Nat} (h : k < chunkCount cfg n) : 0 < chunkLen cfg n k := by
  have := cfg.chunkMax_pos
  have := lt_chunkCount_iff.1 h
  unfold chunkLen; omega

theorem chunkLen_le (cfg : Params) (n k : Nat) : chunkLen cfg n k ≤ cfg.chunkMax := Nat.min_le_left _ _

/-- Every chunk but the last is full. -/
theorem chunkLen_full {cfg : Params} {n k : Nat} (h : k + 1 < chunkCount cfg n) :
    chunkLen cfg n k = cfg.chunkMax := by
  have := lt_chunkCount_iff.1 h
  rw [chunkOff_succ] at this
  unfold chunkLen; omega

/-- The offset after chunk `k`, capped at the length, is the offset after its data. -/
theorem chunkOff_add_len {cfg : Params} {n k : Nat} (h : k < chunkCount cfg n) :
    chunkOff cfg k + chunkLen cfg n k = min (chunkOff cfg (k + 1)) n := by
  have := lt_chunkCount_iff.1 h
  rw [chunkOff_succ]
  unfold chunkLen; omega

theorem slice_length {buf : List Byte} {off len : Nat} (h : off + len ≤ buf.length) :
    (slice buf off len).length = len := by
  simp [slice]; omega

/-- The chunks' slices of a buffer, in order, are its beginning. -/
theorem flatMap_slices (cfg : Params) (buf : List Byte) :
    ∀ j ≤ chunkCount cfg buf.length,
      ((List.range j).flatMap fun k => slice buf (chunkOff cfg k) (chunkLen cfg buf.length k)) =
        buf.take (chunkOff cfg j) := by
  intro j
  induction j with
  | zero => simp [chunkOff]
  | succ j ih =>
    intro h
    have hj : j < chunkCount cfg buf.length := h
    have e := chunkOff_add_len hj
    rw [List.range_succ, List.flatMap_append, ih (by omega)]
    have : buf.take (chunkOff cfg (j + 1)) = buf.take (chunkOff cfg j + chunkLen cfg buf.length j) := by
      rw [e]
      rcases Nat.le_total (chunkOff cfg (j + 1)) buf.length with h1 | h1
      · rw [Nat.min_eq_left h1]
      · rw [Nat.min_eq_right h1, List.take_of_length_le h1, List.take_length]
    rw [this, List.take_add]
    simp [slice]

/-- After the check of a burst no chunk's header can fail (42_burst.md R143). -/
theorem chunk_header_valid {cfg : Params} {a : Byte} {n k : Nat}
    (h : burstRejected cfg a n = false) (hk : k < chunkCount cfg n) (m t : Byte) (d : Direction) :
    encodeHeader cfg m t (chunkAddr cfg a k) d ≠ .invalidAddress := by
  rw [Ne, encodeHeader_invalid_iff]
  rintro ⟨h1, h2⟩
  simp only [burstRejected, h2, true_and, decide_eq_false_iff_not, not_lt, chunkAddr] at h h1
  have : k * cfg.stride ≤ (chunkCount cfg n - 1) * cfg.stride := Nat.mul_le_mul_right _ (by omega)
  omega

/-! ## The environment's answers (20_memory.md R56) -/

theorem BusAnswer.fit_length {n : Nat} {free : Nat → Byte} {a : BusAnswer} {rx : List Byte}
    (h : a.fit n free = .ok rx) : rx.length = n := by
  cases a with
  | fail => cases h
  | ok l => cases h; simp

theorem BusAnswer.fit_ok (free : Nat → Byte) (rx : List Byte) :
    (BusAnswer.ok rx).fit rx.length free = .ok rx := by
  simp only [BusAnswer.fit, BusAnswer.ok.injEq]
  apply List.ext_getElem
  · simp
  · intro i h1 h2
    simp [h2]

theorem Env.answer_length {e : Env} {n : Nat} {rx : List Byte} (h : e.answer n = .ok rx) :
    rx.length = n := BusAnswer.fit_length h

/-- A list's answer of the right length is what the environment answers. -/
theorem Env.answer_cons_ok {e : Env} {rx : List Byte} {rest : List BusAnswer}
    (h : e.answers = .ok rx :: rest) : e.answer rx.length = .ok rx := by
  simp [Env.answer, Env.rawAnswer, h, BusAnswer.fit_ok]

theorem Env.answer_cons_fail {e : Env} {n : Nat} {rest : List BusAnswer}
    (h : e.answers = .fail :: rest) : e.answer n = .fail := by
  simp [Env.answer, Env.rawAnswer, h, BusAnswer.fit]

@[simp] theorem Env.after_zero (e : Env) : e.after 0 = e := by simp [Env.after]

theorem Env.after_succ (e : Env) (j : Nat) : e.afterAnswer.after j = e.after (j + 1) := by
  simp [Env.after, Env.afterAnswer, Nat.add_comm 1 j, Nat.add_assoc]

theorem Env.afterAnswer_after (e : Env) (j : Nat) : (e.after j).afterAnswer = e.after (j + 1) := by
  simp [Env.after, Env.afterAnswer, Nat.add_assoc]

end Sys2Proof.Machine
end

