-- ==== Sys2Proof/Laws/State.lean ====
section
/-! SUPPORT. One lemma per field per update of the state, so that no later proof unfolds a record update. -/

namespace Sys2Proof.Machine

variable (s : State)

@[simp] theorem State.busy_idle {s : State} (h : s.phase = .idle) : s.busy = false := by
  simp [State.busy, h]

theorem State.busy_eq_false_iff {s : State} : s.busy = false ↔ s.phase = .idle := by
  simp [State.busy, bne]


/-! ## evalHeader -/

@[simp] theorem State.evalHeader_cfg (m t : Byte) (a : Nat) (d : Direction) :
    (s.evalHeader m t a d).cfg = s.cfg := rfl
@[simp] theorem State.evalHeader_isOpen (m t : Byte) (a : Nat) (d : Direction) :
    (s.evalHeader m t a d).isOpen = s.isOpen := rfl
@[simp] theorem State.evalHeader_phase (m t : Byte) (a : Nat) (d : Direction) :
    (s.evalHeader m t a d).phase = s.phase := rfl
@[simp] theorem State.evalHeader_k (m t : Byte) (a : Nat) (d : Direction) :
    (s.evalHeader m t a d).k = s.k := rfl
@[simp] theorem State.evalHeader_nch (m t : Byte) (a : Nat) (d : Direction) :
    (s.evalHeader m t a d).nch = s.nch := rfl
@[simp] theorem State.evalHeader_cmd (m t : Byte) (a : Nat) (d : Direction) :
    (s.evalHeader m t a d).cmd = s.cmd := rfl
@[simp] theorem State.evalHeader_wbuf (m t : Byte) (a : Nat) (d : Direction) :
    (s.evalHeader m t a d).wbuf = s.wbuf := rfl
@[simp] theorem State.evalHeader_rbuf (m t : Byte) (a : Nat) (d : Direction) :
    (s.evalHeader m t a d).rbuf = s.rbuf := rfl
@[simp] theorem State.evalHeader_rdata (m t : Byte) (a : Nat) (d : Direction) :
    (s.evalHeader m t a d).rdata = s.rdata := rfl
@[simp] theorem State.evalHeader_hdr (m t : Byte) (a : Nat) (d : Direction) :
    (s.evalHeader m t a d).hdr = encodeHeader s.cfg m t a d := rfl
@[simp] theorem State.evalHeader_lastStatus (m t : Byte) (a : Nat) (d : Direction) :
    (s.evalHeader m t a d).lastStatus = s.lastStatus := rfl
@[simp] theorem State.evalHeader_chunksOk (m t : Byte) (a : Nat) (d : Direction) :
    (s.evalHeader m t a d).chunksOk = s.chunksOk := rfl
@[simp] theorem State.evalHeader_trace (m t : Byte) (a : Nat) (d : Direction) :
    (s.evalHeader m t a d).trace = s.trace := rfl
@[simp] theorem State.evalHeader_responses (m t : Byte) (a : Nat) (d : Direction) :
    (s.evalHeader m t a d).responses = s.responses := rfl
@[simp] theorem State.evalHeader_host (m t : Byte) (a : Nat) (d : Direction) :
    (s.evalHeader m t a d).host = s.host := rfl
@[simp] theorem State.evalHeader_env (m t : Byte) (a : Nat) (d : Direction) :
    (s.evalHeader m t a d).env = s.env := rfl
@[simp] theorem State.evalHeader_stepwise (m t : Byte) (a : Nat) (d : Direction) :
    (s.evalHeader m t a d).stepwise = s.stepwise := rfl

/-! ## busTxn -/

@[simp] theorem State.busTxn_cfg (tx : List Byte) (n : Nat) : (s.busTxn tx n).cfg = s.cfg := rfl
@[simp] theorem State.busTxn_isOpen (tx : List Byte) (n : Nat) :
    (s.busTxn tx n).isOpen = s.isOpen := rfl
@[simp] theorem State.busTxn_phase (tx : List Byte) (n : Nat) :
    (s.busTxn tx n).phase = s.phase := rfl
@[simp] theorem State.busTxn_k (tx : List Byte) (n : Nat) : (s.busTxn tx n).k = s.k := rfl
@[simp] theorem State.busTxn_nch (tx : List Byte) (n : Nat) : (s.busTxn tx n).nch = s.nch := rfl
@[simp] theorem State.busTxn_cmd (tx : List Byte) (n : Nat) : (s.busTxn tx n).cmd = s.cmd := rfl
@[simp] theorem State.busTxn_wbuf (tx : List Byte) (n : Nat) :
    (s.busTxn tx n).wbuf = s.wbuf := rfl
@[simp] theorem State.busTxn_rbuf (tx : List Byte) (n : Nat) :
    (s.busTxn tx n).rbuf = s.rbuf := rfl
@[simp] theorem State.busTxn_rdata (tx : List Byte) (n : Nat) :
    (s.busTxn tx n).rdata = s.rdata := rfl
@[simp] theorem State.busTxn_hdr (tx : List Byte) (n : Nat) : (s.busTxn tx n).hdr = s.hdr := rfl
@[simp] theorem State.busTxn_lastStatus (tx : List Byte) (n : Nat) :
    (s.busTxn tx n).lastStatus = s.lastStatus := rfl
@[simp] theorem State.busTxn_chunksOk (tx : List Byte) (n : Nat) :
    (s.busTxn tx n).chunksOk = s.chunksOk := rfl
@[simp] theorem State.busTxn_trace (tx : List Byte) (n : Nat) :
    (s.busTxn tx n).trace = s.trace ++ [{ tx := tx, rxLen := n, answer := s.env.answer n }] := rfl
@[simp] theorem State.busTxn_responses (tx : List Byte) (n : Nat) :
    (s.busTxn tx n).responses = s.responses := rfl
@[simp] theorem State.busTxn_host (tx : List Byte) (n : Nat) :
    (s.busTxn tx n).host = s.host := rfl
@[simp] theorem State.busTxn_env (tx : List Byte) (n : Nat) :
    (s.busTxn tx n).env = s.env.afterAnswer := rfl
@[simp] theorem State.busTxn_stepwise (tx : List Byte) (n : Nat) :
    (s.busTxn tx n).stepwise = s.stepwise := rfl

/-! ## setOpen -/

@[simp] theorem State.setOpen_cfg (b : Bool) : (s.setOpen b).cfg = s.cfg := rfl
@[simp] theorem State.setOpen_isOpen (b : Bool) : (s.setOpen b).isOpen = b := rfl
@[simp] theorem State.setOpen_phase (b : Bool) : (s.setOpen b).phase = s.phase := rfl
@[simp] theorem State.setOpen_k (b : Bool) : (s.setOpen b).k = s.k := rfl
@[simp] theorem State.setOpen_nch (b : Bool) : (s.setOpen b).nch = s.nch := rfl
@[simp] theorem State.setOpen_cmd (b : Bool) : (s.setOpen b).cmd = s.cmd := rfl
@[simp] theorem State.setOpen_wbuf (b : Bool) : (s.setOpen b).wbuf = s.wbuf := rfl
@[simp] theorem State.setOpen_rbuf (b : Bool) : (s.setOpen b).rbuf = s.rbuf := rfl
@[simp] theorem State.setOpen_rdata (b : Bool) : (s.setOpen b).rdata = s.rdata := rfl
@[simp] theorem State.setOpen_hdr (b : Bool) : (s.setOpen b).hdr = s.hdr := rfl
@[simp] theorem State.setOpen_lastStatus (b : Bool) :
    (s.setOpen b).lastStatus = s.lastStatus := rfl
@[simp] theorem State.setOpen_chunksOk (b : Bool) : (s.setOpen b).chunksOk = s.chunksOk := rfl
@[simp] theorem State.setOpen_trace (b : Bool) : (s.setOpen b).trace = s.trace := rfl
@[simp] theorem State.setOpen_responses (b : Bool) : (s.setOpen b).responses = s.responses := rfl
@[simp] theorem State.setOpen_host (b : Bool) : (s.setOpen b).host = s.host := rfl
@[simp] theorem State.setOpen_env (b : Bool) : (s.setOpen b).env = s.env := rfl
@[simp] theorem State.setOpen_stepwise (b : Bool) : (s.setOpen b).stepwise = s.stepwise := rfl

/-! ## setK -/

@[simp] theorem State.setK_cfg (j : Nat) : (s.setK j).cfg = s.cfg := rfl
@[simp] theorem State.setK_isOpen (j : Nat) : (s.setK j).isOpen = s.isOpen := rfl
@[simp] theorem State.setK_phase (j : Nat) : (s.setK j).phase = s.phase := rfl
@[simp] theorem State.setK_k (j : Nat) : (s.setK j).k = j := rfl
@[simp] theorem State.setK_nch (j : Nat) : (s.setK j).nch = s.nch := rfl
@[simp] theorem State.setK_cmd (j : Nat) : (s.setK j).cmd = s.cmd := rfl
@[simp] theorem State.setK_wbuf (j : Nat) : (s.setK j).wbuf = s.wbuf := rfl
@[simp] theorem State.setK_rbuf (j : Nat) : (s.setK j).rbuf = s.rbuf := rfl
@[simp] theorem State.setK_rdata (j : Nat) : (s.setK j).rdata = s.rdata := rfl
@[simp] theorem State.setK_hdr (j : Nat) : (s.setK j).hdr = s.hdr := rfl
@[simp] theorem State.setK_lastStatus (j : Nat) : (s.setK j).lastStatus = s.lastStatus := rfl
@[simp] theorem State.setK_chunksOk (j : Nat) : (s.setK j).chunksOk = s.chunksOk := rfl
@[simp] theorem State.setK_trace (j : Nat) : (s.setK j).trace = s.trace := rfl
@[simp] theorem State.setK_responses (j : Nat) : (s.setK j).responses = s.responses := rfl
@[simp] theorem State.setK_host (j : Nat) : (s.setK j).host = s.host := rfl
@[simp] theorem State.setK_env (j : Nat) : (s.setK j).env = s.env := rfl
@[simp] theorem State.setK_stepwise (j : Nat) : (s.setK j).stepwise = s.stepwise := rfl

/-! ## setNch -/

@[simp] theorem State.setNch_cfg (j : Nat) : (s.setNch j).cfg = s.cfg := rfl
@[simp] theorem State.setNch_isOpen (j : Nat) : (s.setNch j).isOpen = s.isOpen := rfl
@[simp] theorem State.setNch_phase (j : Nat) : (s.setNch j).phase = s.phase := rfl
@[simp] theorem State.setNch_k (j : Nat) : (s.setNch j).k = s.k := rfl
@[simp] theorem State.setNch_nch (j : Nat) : (s.setNch j).nch = j := rfl
@[simp] theorem State.setNch_cmd (j : Nat) : (s.setNch j).cmd = s.cmd := rfl
@[simp] theorem State.setNch_wbuf (j : Nat) : (s.setNch j).wbuf = s.wbuf := rfl
@[simp] theorem State.setNch_rbuf (j : Nat) : (s.setNch j).rbuf = s.rbuf := rfl
@[simp] theorem State.setNch_rdata (j : Nat) : (s.setNch j).rdata = s.rdata := rfl
@[simp] theorem State.setNch_hdr (j : Nat) : (s.setNch j).hdr = s.hdr := rfl
@[simp] theorem State.setNch_lastStatus (j : Nat) : (s.setNch j).lastStatus = s.lastStatus := rfl
@[simp] theorem State.setNch_chunksOk (j : Nat) : (s.setNch j).chunksOk = s.chunksOk := rfl
@[simp] theorem State.setNch_trace (j : Nat) : (s.setNch j).trace = s.trace := rfl
@[simp] theorem State.setNch_responses (j : Nat) : (s.setNch j).responses = s.responses := rfl
@[simp] theorem State.setNch_host (j : Nat) : (s.setNch j).host = s.host := rfl
@[simp] theorem State.setNch_env (j : Nat) : (s.setNch j).env = s.env := rfl
@[simp] theorem State.setNch_stepwise (j : Nat) : (s.setNch j).stepwise = s.stepwise := rfl

/-! ## setRdata -/

@[simp] theorem State.setRdata_cfg (b : Byte) : (s.setRdata b).cfg = s.cfg := rfl
@[simp] theorem State.setRdata_isOpen (b : Byte) : (s.setRdata b).isOpen = s.isOpen := rfl
@[simp] theorem State.setRdata_phase (b : Byte) : (s.setRdata b).phase = s.phase := rfl
@[simp] theorem State.setRdata_k (b : Byte) : (s.setRdata b).k = s.k := rfl
@[simp] theorem State.setRdata_nch (b : Byte) : (s.setRdata b).nch = s.nch := rfl
@[simp] theorem State.setRdata_cmd (b : Byte) : (s.setRdata b).cmd = s.cmd := rfl
@[simp] theorem State.setRdata_wbuf (b : Byte) : (s.setRdata b).wbuf = s.wbuf := rfl
@[simp] theorem State.setRdata_rbuf (b : Byte) : (s.setRdata b).rbuf = s.rbuf := rfl
@[simp] theorem State.setRdata_rdata (b : Byte) : (s.setRdata b).rdata = b := rfl
@[simp] theorem State.setRdata_hdr (b : Byte) : (s.setRdata b).hdr = s.hdr := rfl
@[simp] theorem State.setRdata_lastStatus (b : Byte) :
    (s.setRdata b).lastStatus = s.lastStatus := rfl
@[simp] theorem State.setRdata_chunksOk (b : Byte) : (s.setRdata b).chunksOk = s.chunksOk := rfl
@[simp] theorem State.setRdata_trace (b : Byte) : (s.setRdata b).trace = s.trace := rfl
@[simp] theorem State.setRdata_responses (b : Byte) :
    (s.setRdata b).responses = s.responses := rfl
@[simp] theorem State.setRdata_host (b : Byte) : (s.setRdata b).host = s.host := rfl
@[simp] theorem State.setRdata_env (b : Byte) : (s.setRdata b).env = s.env := rfl
@[simp] theorem State.setRdata_stepwise (b : Byte) : (s.setRdata b).stepwise = s.stepwise := rfl

/-! ## setPhase -/

@[simp] theorem State.setPhase_cfg (p : Phase) : (s.setPhase p).cfg = s.cfg := rfl
@[simp] theorem State.setPhase_isOpen (p : Phase) : (s.setPhase p).isOpen = s.isOpen := rfl
@[simp] theorem State.setPhase_phase (p : Phase) : (s.setPhase p).phase = p := rfl
@[simp] theorem State.setPhase_k (p : Phase) : (s.setPhase p).k = s.k := rfl
@[simp] theorem State.setPhase_nch (p : Phase) : (s.setPhase p).nch = s.nch := rfl
@[simp] theorem State.setPhase_cmd (p : Phase) : (s.setPhase p).cmd = s.cmd := rfl
@[simp] theorem State.setPhase_wbuf (p : Phase) : (s.setPhase p).wbuf = s.wbuf := rfl
@[simp] theorem State.setPhase_rbuf (p : Phase) : (s.setPhase p).rbuf = s.rbuf := rfl
@[simp] theorem State.setPhase_rdata (p : Phase) : (s.setPhase p).rdata = s.rdata := rfl
@[simp] theorem State.setPhase_hdr (p : Phase) : (s.setPhase p).hdr = s.hdr := rfl
@[simp] theorem State.setPhase_lastStatus (p : Phase) :
    (s.setPhase p).lastStatus = s.lastStatus := rfl
@[simp] theorem State.setPhase_chunksOk (p : Phase) : (s.setPhase p).chunksOk = s.chunksOk := rfl
@[simp] theorem State.setPhase_trace (p : Phase) : (s.setPhase p).trace = s.trace := rfl
@[simp] theorem State.setPhase_responses (p : Phase) :
    (s.setPhase p).responses = s.responses := rfl
@[simp] theorem State.setPhase_host (p : Phase) : (s.setPhase p).host = s.host := rfl
@[simp] theorem State.setPhase_env (p : Phase) : (s.setPhase p).env = s.env := rfl
@[simp] theorem State.setPhase_stepwise (p : Phase) : (s.setPhase p).stepwise = s.stepwise := rfl

/-! ## drawAvail -/

@[simp] theorem State.drawAvail_cfg : (s.drawAvail).cfg = s.cfg := rfl
@[simp] theorem State.drawAvail_isOpen : (s.drawAvail).isOpen = s.isOpen := rfl
@[simp] theorem State.drawAvail_phase : (s.drawAvail).phase = s.phase := rfl
@[simp] theorem State.drawAvail_k : (s.drawAvail).k = s.k := rfl
@[simp] theorem State.drawAvail_nch : (s.drawAvail).nch = s.nch := rfl
@[simp] theorem State.drawAvail_cmd : (s.drawAvail).cmd = s.cmd := rfl
@[simp] theorem State.drawAvail_wbuf : (s.drawAvail).wbuf = s.wbuf := rfl
@[simp] theorem State.drawAvail_rbuf : (s.drawAvail).rbuf = s.rbuf := rfl
@[simp] theorem State.drawAvail_rdata : (s.drawAvail).rdata = s.rdata := rfl
@[simp] theorem State.drawAvail_hdr : (s.drawAvail).hdr = s.hdr := rfl
@[simp] theorem State.drawAvail_lastStatus : (s.drawAvail).lastStatus = s.lastStatus := rfl
@[simp] theorem State.drawAvail_chunksOk : (s.drawAvail).chunksOk = s.chunksOk := rfl
@[simp] theorem State.drawAvail_trace : (s.drawAvail).trace = s.trace := rfl
@[simp] theorem State.drawAvail_responses : (s.drawAvail).responses = s.responses := rfl
@[simp] theorem State.drawAvail_host : (s.drawAvail).host = s.host := rfl
@[simp] theorem State.drawAvail_env : (s.drawAvail).env = s.env.afterAvail := rfl
@[simp] theorem State.drawAvail_stepwise : (s.drawAvail).stepwise = s.stepwise := rfl

/-! ## takeRequest -/

@[simp] theorem State.takeRequest_cfg : (s.takeRequest).cfg = s.cfg := rfl
@[simp] theorem State.takeRequest_isOpen : (s.takeRequest).isOpen = s.isOpen := rfl
@[simp] theorem State.takeRequest_phase : (s.takeRequest).phase = s.phase := rfl
@[simp] theorem State.takeRequest_k : (s.takeRequest).k = s.k := rfl
@[simp] theorem State.takeRequest_nch : (s.takeRequest).nch = s.nch := rfl
@[simp] theorem State.takeRequest_cmd : (s.takeRequest).cmd = s.cmd := rfl
@[simp] theorem State.takeRequest_wbuf : (s.takeRequest).wbuf = s.wbuf := rfl
@[simp] theorem State.takeRequest_rbuf : (s.takeRequest).rbuf = s.rbuf := rfl
@[simp] theorem State.takeRequest_rdata : (s.takeRequest).rdata = s.rdata := rfl
@[simp] theorem State.takeRequest_hdr : (s.takeRequest).hdr = s.hdr := rfl
@[simp] theorem State.takeRequest_lastStatus : (s.takeRequest).lastStatus = s.lastStatus := rfl
@[simp] theorem State.takeRequest_chunksOk : (s.takeRequest).chunksOk = s.chunksOk := rfl
@[simp] theorem State.takeRequest_trace : (s.takeRequest).trace = s.trace := rfl
@[simp] theorem State.takeRequest_responses : (s.takeRequest).responses = s.responses := rfl
@[simp] theorem State.takeRequest_host : (s.takeRequest).host = s.host.tail := rfl
@[simp] theorem State.takeRequest_env : (s.takeRequest).env = s.env := rfl
@[simp] theorem State.takeRequest_stepwise : (s.takeRequest).stepwise = s.stepwise := rfl

/-! ## spoil -/

@[simp] theorem State.spoil_cfg (st : Status) : (s.spoil st).cfg = s.cfg := rfl
@[simp] theorem State.spoil_isOpen (st : Status) : (s.spoil st).isOpen = s.isOpen := rfl
@[simp] theorem State.spoil_phase (st : Status) : (s.spoil st).phase = s.phase := rfl
@[simp] theorem State.spoil_k (st : Status) : (s.spoil st).k = s.k := rfl
@[simp] theorem State.spoil_nch (st : Status) : (s.spoil st).nch = s.nch := rfl
@[simp] theorem State.spoil_cmd (st : Status) : (s.spoil st).cmd = s.cmd := rfl
@[simp] theorem State.spoil_wbuf (st : Status) : (s.spoil st).wbuf = s.wbuf := rfl
@[simp] theorem State.spoil_rbuf (st : Status) : (s.spoil st).rbuf =
    if st = .notOpen then s.rbuf else Config.freeRbuf s.env.draws s.rbuf := rfl
@[simp] theorem State.spoil_rdata (st : Status) : (s.spoil st).rdata = Config.freeRdata s.env.draws s.rdata := rfl
@[simp] theorem State.spoil_hdr (st : Status) : (s.spoil st).hdr = s.hdr := rfl
@[simp] theorem State.spoil_lastStatus (st : Status) : (s.spoil st).lastStatus = s.lastStatus := rfl
@[simp] theorem State.spoil_chunksOk (st : Status) : (s.spoil st).chunksOk = s.chunksOk := rfl
@[simp] theorem State.spoil_trace (st : Status) : (s.spoil st).trace = s.trace := rfl
@[simp] theorem State.spoil_responses (st : Status) : (s.spoil st).responses = s.responses := rfl
@[simp] theorem State.spoil_host (st : Status) : (s.spoil st).host = s.host := rfl
@[simp] theorem State.spoil_env (st : Status) : (s.spoil st).env = { s.env with draws := s.env.draws + 1 } := rfl
@[simp] theorem State.spoil_stepwise (st : Status) : (s.spoil st).stepwise = s.stepwise := rfl

/-! ## complete -/

@[simp] theorem State.complete_cfg (r : Response) : (s.complete r).cfg = s.cfg := rfl
@[simp] theorem State.complete_isOpen (r : Response) : (s.complete r).isOpen = s.isOpen := rfl
@[simp] theorem State.complete_phase (r : Response) : (s.complete r).phase = .completing r := rfl
@[simp] theorem State.complete_k (r : Response) : (s.complete r).k = s.k := rfl
@[simp] theorem State.complete_nch (r : Response) : (s.complete r).nch = s.nch := rfl
@[simp] theorem State.complete_cmd (r : Response) : (s.complete r).cmd = s.cmd := rfl
@[simp] theorem State.complete_wbuf (r : Response) : (s.complete r).wbuf = s.wbuf := rfl
@[simp] theorem State.complete_rbuf (r : Response) : (s.complete r).rbuf = s.rbuf := rfl
@[simp] theorem State.complete_rdata (r : Response) : (s.complete r).rdata = s.rdata := rfl
@[simp] theorem State.complete_hdr (r : Response) : (s.complete r).hdr = s.hdr := rfl
@[simp] theorem State.complete_lastStatus (r : Response) :
    (s.complete r).lastStatus = s.lastStatus := rfl
@[simp] theorem State.complete_chunksOk (r : Response) :
    (s.complete r).chunksOk = s.chunksOk := rfl
@[simp] theorem State.complete_trace (r : Response) : (s.complete r).trace = s.trace := rfl
@[simp] theorem State.complete_responses (r : Response) :
    (s.complete r).responses = s.responses := rfl
@[simp] theorem State.complete_host (r : Response) : (s.complete r).host = s.host := rfl
@[simp] theorem State.complete_env (r : Response) : (s.complete r).env = s.env := rfl
@[simp] theorem State.complete_stepwise (r : Response) :
    (s.complete r).stepwise = s.stepwise := rfl

/-! ## failing -/

@[simp] theorem State.failing_cfg (st : Status) (j : Nat) : (s.failing st j).cfg = s.cfg := rfl
@[simp] theorem State.failing_isOpen (st : Status) (j : Nat) :
    (s.failing st j).isOpen = s.isOpen := rfl
@[simp] theorem State.failing_phase (st : Status) (j : Nat) :
    (s.failing st j).phase = .completing (errorResponse st j) := rfl
@[simp] theorem State.failing_k (st : Status) (j : Nat) : (s.failing st j).k = s.k := rfl
@[simp] theorem State.failing_nch (st : Status) (j : Nat) : (s.failing st j).nch = s.nch := rfl
@[simp] theorem State.failing_cmd (st : Status) (j : Nat) : (s.failing st j).cmd = s.cmd := rfl
@[simp] theorem State.failing_wbuf (st : Status) (j : Nat) : (s.failing st j).wbuf = s.wbuf := rfl
@[simp] theorem State.failing_rbuf (st : Status) (j : Nat) : (s.failing st j).rbuf = s.rbuf := rfl
@[simp] theorem State.failing_rdata (st : Status) (j : Nat) :
    (s.failing st j).rdata = s.rdata := rfl
@[simp] theorem State.failing_hdr (st : Status) (j : Nat) : (s.failing st j).hdr = s.hdr := rfl
@[simp] theorem State.failing_lastStatus (st : Status) (j : Nat) :
    (s.failing st j).lastStatus = s.lastStatus := rfl
@[simp] theorem State.failing_chunksOk (st : Status) (j : Nat) :
    (s.failing st j).chunksOk = s.chunksOk := rfl
@[simp] theorem State.failing_trace (st : Status) (j : Nat) :
    (s.failing st j).trace = s.trace := rfl
@[simp] theorem State.failing_responses (st : Status) (j : Nat) :
    (s.failing st j).responses = s.responses := rfl
@[simp] theorem State.failing_host (st : Status) (j : Nat) : (s.failing st j).host = s.host := rfl
@[simp] theorem State.failing_env (st : Status) (j : Nat) : (s.failing st j).env = s.env := rfl
@[simp] theorem State.failing_stepwise (st : Status) (j : Nat) :
    (s.failing st j).stepwise = s.stepwise := rfl

/-! ## succeeding -/

@[simp] theorem State.succeeding_cfg (d : RespData) : (s.succeeding d).cfg = s.cfg := rfl
@[simp] theorem State.succeeding_isOpen (d : RespData) : (s.succeeding d).isOpen = s.isOpen := rfl
@[simp] theorem State.succeeding_phase (d : RespData) :
    (s.succeeding d).phase = .completing { status := .ok, data := d, chunksOk := 0 } := rfl
@[simp] theorem State.succeeding_k (d : RespData) : (s.succeeding d).k = s.k := rfl
@[simp] theorem State.succeeding_nch (d : RespData) : (s.succeeding d).nch = s.nch := rfl
@[simp] theorem State.succeeding_cmd (d : RespData) : (s.succeeding d).cmd = s.cmd := rfl
@[simp] theorem State.succeeding_wbuf (d : RespData) : (s.succeeding d).wbuf = s.wbuf := rfl
@[simp] theorem State.succeeding_rbuf (d : RespData) : (s.succeeding d).rbuf = s.rbuf := rfl
@[simp] theorem State.succeeding_rdata (d : RespData) : (s.succeeding d).rdata = s.rdata := rfl
@[simp] theorem State.succeeding_hdr (d : RespData) : (s.succeeding d).hdr = s.hdr := rfl
@[simp] theorem State.succeeding_lastStatus (d : RespData) :
    (s.succeeding d).lastStatus = s.lastStatus := rfl
@[simp] theorem State.succeeding_chunksOk (d : RespData) :
    (s.succeeding d).chunksOk = s.chunksOk := rfl
@[simp] theorem State.succeeding_trace (d : RespData) : (s.succeeding d).trace = s.trace := rfl
@[simp] theorem State.succeeding_responses (d : RespData) :
    (s.succeeding d).responses = s.responses := rfl
@[simp] theorem State.succeeding_host (d : RespData) : (s.succeeding d).host = s.host := rfl
@[simp] theorem State.succeeding_env (d : RespData) : (s.succeeding d).env = s.env := rfl
@[simp] theorem State.succeeding_stepwise (d : RespData) :
    (s.succeeding d).stepwise = s.stepwise := rfl

/-! ## storeChunk -/

@[simp] theorem State.storeChunk_cfg (d : Direction) (off : Nat) (rx : List Byte) :
    (s.storeChunk d off rx).cfg = s.cfg := by cases d <;> rfl
@[simp] theorem State.storeChunk_isOpen (d : Direction) (off : Nat) (rx : List Byte) :
    (s.storeChunk d off rx).isOpen = s.isOpen := by cases d <;> rfl
@[simp] theorem State.storeChunk_phase (d : Direction) (off : Nat) (rx : List Byte) :
    (s.storeChunk d off rx).phase = s.phase := by cases d <;> rfl
@[simp] theorem State.storeChunk_k (d : Direction) (off : Nat) (rx : List Byte) :
    (s.storeChunk d off rx).k = s.k := by cases d <;> rfl
@[simp] theorem State.storeChunk_nch (d : Direction) (off : Nat) (rx : List Byte) :
    (s.storeChunk d off rx).nch = s.nch := by cases d <;> rfl
@[simp] theorem State.storeChunk_cmd (d : Direction) (off : Nat) (rx : List Byte) :
    (s.storeChunk d off rx).cmd = s.cmd := by cases d <;> rfl
@[simp] theorem State.storeChunk_wbuf (d : Direction) (off : Nat) (rx : List Byte) :
    (s.storeChunk d off rx).wbuf = s.wbuf := by cases d <;> rfl
@[simp] theorem State.storeChunk_write (off : Nat) (rx : List Byte) : s.storeChunk .write off rx = s := rfl
@[simp] theorem State.storeChunk_read_rbuf (off : Nat) (rx : List Byte) :
    (s.storeChunk .read off rx).rbuf = s.rbuf.take off ++ rx := rfl
@[simp] theorem State.storeChunk_rdata (d : Direction) (off : Nat) (rx : List Byte) :
    (s.storeChunk d off rx).rdata = s.rdata := by cases d <;> rfl
@[simp] theorem State.storeChunk_hdr (d : Direction) (off : Nat) (rx : List Byte) :
    (s.storeChunk d off rx).hdr = s.hdr := by cases d <;> rfl
@[simp] theorem State.storeChunk_lastStatus (d : Direction) (off : Nat) (rx : List Byte) :
    (s.storeChunk d off rx).lastStatus = s.lastStatus := by cases d <;> rfl
@[simp] theorem State.storeChunk_chunksOk (d : Direction) (off : Nat) (rx : List Byte) :
    (s.storeChunk d off rx).chunksOk = s.chunksOk := by cases d <;> rfl
@[simp] theorem State.storeChunk_trace (d : Direction) (off : Nat) (rx : List Byte) :
    (s.storeChunk d off rx).trace = s.trace := by cases d <;> rfl
@[simp] theorem State.storeChunk_responses (d : Direction) (off : Nat) (rx : List Byte) :
    (s.storeChunk d off rx).responses = s.responses := by cases d <;> rfl
@[simp] theorem State.storeChunk_host (d : Direction) (off : Nat) (rx : List Byte) :
    (s.storeChunk d off rx).host = s.host := by cases d <;> rfl
@[simp] theorem State.storeChunk_env (d : Direction) (off : Nat) (rx : List Byte) :
    (s.storeChunk d off rx).env = s.env := by cases d <;> rfl
@[simp] theorem State.storeChunk_stepwise (d : Direction) (off : Nat) (rx : List Byte) :
    (s.storeChunk d off rx).stepwise = s.stepwise := by cases d <;> rfl

/-! ## latch -/

@[simp] theorem State.latch_cfg (i : Instr) : (s.latch i).cfg = s.cfg := by cases i <;> rfl
@[simp] theorem State.latch_isOpen (i : Instr) : (s.latch i).isOpen = s.isOpen := by cases i <;> rfl
@[simp] theorem State.latch_phase (i : Instr) : (s.latch i).phase = s.phase := by cases i <;> rfl
@[simp] theorem State.latch_k (i : Instr) : (s.latch i).k = s.k := by cases i <;> rfl
@[simp] theorem State.latch_nch (i : Instr) : (s.latch i).nch = s.nch := by cases i <;> rfl
@[simp] theorem State.latch_rbuf (i : Instr) : (s.latch i).rbuf = s.rbuf := by cases i <;> rfl
@[simp] theorem State.latch_rdata (i : Instr) : (s.latch i).rdata = s.rdata := by cases i <;> rfl
@[simp] theorem State.latch_hdr (i : Instr) : (s.latch i).hdr = s.hdr := by cases i <;> rfl
@[simp] theorem State.latch_lastStatus (i : Instr) : (s.latch i).lastStatus = s.lastStatus := by cases i <;> rfl
@[simp] theorem State.latch_chunksOk (i : Instr) : (s.latch i).chunksOk = s.chunksOk := by cases i <;> rfl
@[simp] theorem State.latch_trace (i : Instr) : (s.latch i).trace = s.trace := by cases i <;> rfl
@[simp] theorem State.latch_responses (i : Instr) : (s.latch i).responses = s.responses := by cases i <;> rfl
@[simp] theorem State.latch_host (i : Instr) : (s.latch i).host = s.host := by cases i <;> rfl
@[simp] theorem State.latch_env (i : Instr) : (s.latch i).env = s.env := by cases i <;> rfl
@[simp] theorem State.latch_stepwise (i : Instr) : (s.latch i).stepwise = s.stepwise := by cases i <;> rfl
@[simp] theorem State.latch_openBus_cmd :
    (s.latch .openBus).cmd = { s.cmd with op := .openBus } := rfl
@[simp] theorem State.latch_openBus_wbuf : (s.latch .openBus).wbuf = s.wbuf := rfl
@[simp] theorem State.latch_closeBus_cmd :
    (s.latch .closeBus).cmd = { s.cmd with op := .closeBus } := rfl
@[simp] theorem State.latch_closeBus_wbuf : (s.latch .closeBus).wbuf = s.wbuf := rfl
@[simp] theorem State.latch_writeByte_cmd (m : Byte) (t : Byte) (a : Byte) (v : Byte) :
    (s.latch (.writeByte m t a v)).cmd = { s.cmd with op := .writeByte, mux := m, tgt := t, addr := a, val := v } := rfl
@[simp] theorem State.latch_writeByte_wbuf (m : Byte) (t : Byte) (a : Byte) (v : Byte) : (s.latch (.writeByte m t a v)).wbuf = s.wbuf := rfl
@[simp] theorem State.latch_readByte_cmd (m : Byte) (t : Byte) (a : Byte) :
    (s.latch (.readByte m t a)).cmd = { s.cmd with op := .readByte, mux := m, tgt := t, addr := a } := rfl
@[simp] theorem State.latch_readByte_wbuf (m : Byte) (t : Byte) (a : Byte) : (s.latch (.readByte m t a)).wbuf = s.wbuf := rfl
@[simp] theorem State.latch_writeBurst_cmd (m : Byte) (t : Byte) (a : Byte) (buf : List Byte) :
    (s.latch (.writeBurst m t a buf)).cmd = { s.cmd with op := .writeBurst, mux := m, tgt := t, addr := a, len := buf.length } := rfl
@[simp] theorem State.latch_writeBurst_wbuf (m : Byte) (t : Byte) (a : Byte) (buf : List Byte) : (s.latch (.writeBurst m t a buf)).wbuf = buf := rfl
@[simp] theorem State.latch_readBurst_cmd (m : Byte) (t : Byte) (a : Byte) (n : Nat) :
    (s.latch (.readBurst m t a n)).cmd = { s.cmd with op := .readBurst, mux := m, tgt := t, addr := a, len := n } := rfl
@[simp] theorem State.latch_readBurst_wbuf (m : Byte) (t : Byte) (a : Byte) (n : Nat) : (s.latch (.readBurst m t a n)).wbuf = s.wbuf := rfl
@[simp] theorem State.latch_encodeHeaderW (m t : Byte) (a : Nat) : s.latch (.encodeHeaderW m t a) = s := rfl
@[simp] theorem State.latch_encodeHeaderR (m t : Byte) (a : Nat) : s.latch (.encodeHeaderR m t a) = s := rfl

/-! ## finish, respond, raise -/

@[simp] theorem State.finish_cfg (r : Response) :
    (s.finish r).cfg = s.cfg := by
  unfold State.finish; split <;> simp
@[simp] theorem State.finish_isOpen (r : Response) :
    (s.finish r).isOpen = s.isOpen := by
  unfold State.finish; split <;> simp
@[simp] theorem State.finish_phase (r : Response) :
    (s.finish r).phase = .idle := by
  unfold State.finish; split <;> simp
@[simp] theorem State.finish_k (r : Response) :
    (s.finish r).k = s.k := by
  unfold State.finish; split <;> simp
@[simp] theorem State.finish_nch (r : Response) :
    (s.finish r).nch = s.nch := by
  unfold State.finish; split <;> simp
@[simp] theorem State.finish_cmd (r : Response) :
    (s.finish r).cmd = s.cmd := by
  unfold State.finish; split <;> simp
@[simp] theorem State.finish_wbuf (r : Response) :
    (s.finish r).wbuf = s.wbuf := by
  unfold State.finish; split <;> simp
@[simp] theorem State.finish_rbuf (r : Response) :
    (s.finish r).rbuf = if r.status = .ok ∨ r.status = .notOpen then s.rbuf
      else Config.freeRbuf s.env.draws s.rbuf := by
  unfold State.finish; split <;> simp [*]
@[simp] theorem State.finish_rdata (r : Response) :
    (s.finish r).rdata = if r.status = .ok then s.rdata else Config.freeRdata s.env.draws s.rdata := by
  unfold State.finish; split <;> simp
@[simp] theorem State.finish_hdr (r : Response) :
    (s.finish r).hdr = s.hdr := by
  unfold State.finish; split <;> simp
@[simp] theorem State.finish_lastStatus (r : Response) :
    (s.finish r).lastStatus = r.status := by
  unfold State.finish; split <;> simp
@[simp] theorem State.finish_chunksOk (r : Response) :
    (s.finish r).chunksOk = r.chunksOk := by
  unfold State.finish; split <;> simp
@[simp] theorem State.finish_trace (r : Response) :
    (s.finish r).trace = s.trace := by
  unfold State.finish; split <;> simp
@[simp] theorem State.finish_responses (r : Response) :
    (s.finish r).responses = s.responses ++ [r] := by
  unfold State.finish; split <;> simp
@[simp] theorem State.finish_host (r : Response) :
    (s.finish r).host = s.host := by
  unfold State.finish; split <;> simp
@[simp] theorem State.finish_env (r : Response) :
    (s.finish r).env = if r.status = .ok then s.env else { s.env with draws := s.env.draws + 1 } := by
  unfold State.finish; split <;> simp
@[simp] theorem State.finish_stepwise (r : Response) :
    (s.finish r).stepwise = s.stepwise := by
  unfold State.finish; split <;> simp
@[simp] theorem State.respond_cfg (d : RespData) :
    (s.respond d).cfg = s.cfg := by
  simp [State.respond]
@[simp] theorem State.respond_isOpen (d : RespData) :
    (s.respond d).isOpen = s.isOpen := by
  simp [State.respond]
@[simp] theorem State.respond_phase (d : RespData) :
    (s.respond d).phase = .idle := by
  simp [State.respond]
@[simp] theorem State.respond_k (d : RespData) :
    (s.respond d).k = s.k := by
  simp [State.respond]
@[simp] theorem State.respond_nch (d : RespData) :
    (s.respond d).nch = s.nch := by
  simp [State.respond]
@[simp] theorem State.respond_cmd (d : RespData) :
    (s.respond d).cmd = s.cmd := by
  simp [State.respond]
@[simp] theorem State.respond_wbuf (d : RespData) :
    (s.respond d).wbuf = s.wbuf := by
  simp [State.respond]
@[simp] theorem State.respond_rbuf (d : RespData) :
    (s.respond d).rbuf = s.rbuf := by
  simp [State.respond]
@[simp] theorem State.respond_rdata (d : RespData) :
    (s.respond d).rdata = s.rdata := by
  simp [State.respond]
@[simp] theorem State.respond_hdr (d : RespData) :
    (s.respond d).hdr = s.hdr := by
  simp [State.respond]
@[simp] theorem State.respond_lastStatus (d : RespData) :
    (s.respond d).lastStatus = .ok := by
  simp [State.respond]
@[simp] theorem State.respond_chunksOk (d : RespData) :
    (s.respond d).chunksOk = 0 := by
  simp [State.respond]
@[simp] theorem State.respond_trace (d : RespData) :
    (s.respond d).trace = s.trace := by
  simp [State.respond]
@[simp] theorem State.respond_responses (d : RespData) :
    (s.respond d).responses = s.responses ++ [{ status := .ok, data := d, chunksOk := 0 }] := by
  simp [State.respond]
@[simp] theorem State.respond_host (d : RespData) :
    (s.respond d).host = s.host := by
  simp [State.respond]
@[simp] theorem State.respond_env (d : RespData) :
    (s.respond d).env = s.env := by
  simp [State.respond]
@[simp] theorem State.respond_stepwise (d : RespData) :
    (s.respond d).stepwise = s.stepwise := by
  simp [State.respond]
@[simp] theorem State.raise_cfg (st : Status) (j : Nat) :
    (s.raise st j).cfg = s.cfg := by
  simp [State.raise, errorResponse]
@[simp] theorem State.raise_isOpen (st : Status) (j : Nat) :
    (s.raise st j).isOpen = s.isOpen := by
  simp [State.raise, errorResponse]
@[simp] theorem State.raise_phase (st : Status) (j : Nat) :
    (s.raise st j).phase = .idle := by
  simp [State.raise, errorResponse]
@[simp] theorem State.raise_k (st : Status) (j : Nat) :
    (s.raise st j).k = s.k := by
  simp [State.raise, errorResponse]
@[simp] theorem State.raise_nch (st : Status) (j : Nat) :
    (s.raise st j).nch = s.nch := by
  simp [State.raise, errorResponse]
@[simp] theorem State.raise_cmd (st : Status) (j : Nat) :
    (s.raise st j).cmd = s.cmd := by
  simp [State.raise, errorResponse]
@[simp] theorem State.raise_wbuf (st : Status) (j : Nat) :
    (s.raise st j).wbuf = s.wbuf := by
  simp [State.raise, errorResponse]
@[simp] theorem State.raise_rbuf (st : Status) (j : Nat) :
    (s.raise st j).rbuf = if st = .ok ∨ st = .notOpen then s.rbuf
      else Config.freeRbuf s.env.draws s.rbuf := by
  simp [State.raise, errorResponse]
@[simp] theorem State.raise_rdata (st : Status) (j : Nat) :
    (s.raise st j).rdata = if st = .ok then s.rdata else Config.freeRdata s.env.draws s.rdata := by
  simp [State.raise, errorResponse]
@[simp] theorem State.raise_hdr (st : Status) (j : Nat) :
    (s.raise st j).hdr = s.hdr := by
  simp [State.raise, errorResponse]
@[simp] theorem State.raise_lastStatus (st : Status) (j : Nat) :
    (s.raise st j).lastStatus = st := by
  simp [State.raise, errorResponse]
@[simp] theorem State.raise_chunksOk (st : Status) (j : Nat) :
    (s.raise st j).chunksOk = chunksOkOf st j := by
  simp [State.raise, errorResponse]
@[simp] theorem State.raise_trace (st : Status) (j : Nat) :
    (s.raise st j).trace = s.trace := by
  simp [State.raise, errorResponse]
@[simp] theorem State.raise_responses (st : Status) (j : Nat) :
    (s.raise st j).responses = s.responses ++ [errorResponse st j] := by
  simp [State.raise, errorResponse]
@[simp] theorem State.raise_host (st : Status) (j : Nat) :
    (s.raise st j).host = s.host := by
  simp [State.raise, errorResponse]
@[simp] theorem State.raise_env (st : Status) (j : Nat) :
    (s.raise st j).env = if st = .ok then s.env else { s.env with draws := s.env.draws + 1 } := by
  simp [State.raise, errorResponse]
@[simp] theorem State.raise_stepwise (st : Status) (j : Nat) :
    (s.raise st j).stepwise = s.stepwise := by
  simp [State.raise, errorResponse]

end Sys2Proof.Machine
end

