-- ==== Sys2Proof/Laws/Burst.lean ====
section
/-! SUPPORT. What the chunk loop of a burst does: one chunk at a time, and after any number of them. -/

namespace Sys2Proof.Machine

/-! ## The environment answers a burst to its end or fails one chunk first -/

theorem BusAnswer.isOk_iff (a : BusAnswer) : a.isOk = true ↔ ∃ rx, a = .ok rx := by
  cases a <;> simp [BusAnswer.isOk]

theorem BusAnswer.isOk_eq_false_iff (a : BusAnswer) : a.isOk = false ↔ a = .fail := by
  cases a <;> simp [BusAnswer.isOk]

/-- Either the first `n` chunks are answered `Ok`, or there is a first one answered `Fail`. -/
theorem chunksAnswered_or_fail (cfg : Params) (e : Env) (d : Direction) (len n : Nat) :
    chunksAnswered cfg e d len n ∨
      ∃ j < n, chunksAnswered cfg e d len j ∧ chunkAnswer cfg e d len j = .fail := by
  induction n with
  | zero => exact .inl fun _ h => absurd h (Nat.not_lt_zero _)
  | succ n ih =>
    obtain ih | ⟨j, hj, h⟩ := ih
    · cases ha : (chunkAnswer cfg e d len n).isOk with
      | true =>
        refine .inl fun k hk => ?_
        obtain rfl | hk := Nat.lt_succ_iff_lt_or_eq.1 hk |>.symm
        · exact ha
        · exact ih k hk
      | false => exact .inr ⟨n, Nat.lt_succ_self n, ih, (BusAnswer.isOk_eq_false_iff _).1 ha⟩
    · exact .inr ⟨j, Nat.lt_succ_of_lt hj, h⟩

theorem chunkAnswer_length {cfg : Params} {e : Env} {d : Direction} {n k : Nat} {rx : List Byte}
    (h : chunkAnswer cfg e d n k = .ok rx) : rx.length = frameRxLen d (chunkLen cfg n k) :=
  Env.answer_length h

@[simp] theorem chunkEntries_zero (cfg : Params) (e : Env) (d : Direction) (m t a : Byte)
    (buf : List Byte) (n : Nat) : chunkEntries cfg e d m t a buf n 0 = [] := rfl

theorem chunkEntries_succ (cfg : Params) (e : Env) (d : Direction) (m t a : Byte)
    (buf : List Byte) (n j : Nat) :
    chunkEntries cfg e d m t a buf n (j + 1) =
      chunkEntries cfg e d m t a buf n j ++ [chunkEntry cfg e d m t a buf n j] := by
  simp [chunkEntries, List.range_succ]

@[simp] theorem chunkEntries_length (cfg : Params) (e : Env) (d : Direction) (m t a : Byte)
    (buf : List Byte) (n j : Nat) : (chunkEntries cfg e d m t a buf n j).length = j := by
  simp [chunkEntries]

@[simp] theorem chunksReceived_zero (cfg : Params) (e : Env) (d : Direction) (n : Nat) :
    chunksReceived cfg e d n 0 = [] := rfl

theorem chunksReceived_succ (cfg : Params) (e : Env) (d : Direction) (n j : Nat) :
    chunksReceived cfg e d n (j + 1) =
      chunksReceived cfg e d n j ++ (chunkAnswer cfg e d n j).received := by
  simp [chunksReceived, List.range_succ]

/-- The first `j` chunks of a read bring the bytes before offset `j * C`, as far as there are any. -/
theorem chunksReceived_length {cfg : Params} {e : Env} {n j : Nat} (hj : j ≤ chunkCount cfg n)
    (h : chunksAnswered cfg e .read n j) :
    (chunksReceived cfg e .read n j).length = min (chunkOff cfg j) n := by
  induction j with
  | zero => simp [chunkOff]
  | succ j ih =>
    have hj' : j < chunkCount cfg n := hj
    obtain ⟨rx, hrx⟩ := (BusAnswer.isOk_iff _).1 (h j (Nat.lt_succ_self j))
    have hlen := chunkAnswer_length hrx
    have := lt_chunkCount_iff.1 hj'
    rw [chunksReceived_succ, List.length_append, ih (by omega) fun k hk => h k (by omega), hrx,
      ← chunkOff_add_len hj', Nat.min_eq_left (by omega)]
    simp [BusAnswer.received, hlen, frameRxLen]

/-! ## The loop -/

/-- The state before chunk `j` of a burst that began, checked and with `K = 0`, in state `s`, all earlier chunks answered
`Ok`. -/
def afterChunks (d : Direction) (m t a : Byte) (buf : List Byte) (n : Nat) (s : State) :
    Nat → State
  | 0 => s
  | j + 1 =>
    { s with
      k := j + 1
      hdr := encodeHeader s.cfg m t (chunkAddr s.cfg a j) d
      env := s.env.after (j + 1)
      trace := s.trace ++ chunkEntries s.cfg s.env d m t a buf n (j + 1)
      rbuf :=
        match d with
        | .write => s.rbuf
        | .read => chunksReceived s.cfg s.env .read n (j + 1) }

variable {d : Direction} {m t a : Byte} {buf : List Byte} {n : Nat} {s : State}

@[simp] theorem afterChunks_cfg (j : Nat) : (afterChunks d m t a buf n s j).cfg = s.cfg := by
  cases j <;> rfl

theorem afterChunks_k (h0 : s.k = 0) (j : Nat) : (afterChunks d m t a buf n s j).k = j := by
  cases j <;> simp [afterChunks, h0]

@[simp] theorem afterChunks_env (j : Nat) : (afterChunks d m t a buf n s j).env = s.env.after j := by
  cases j <;> simp [afterChunks]

@[simp] theorem afterChunks_trace (j : Nat) : (afterChunks d m t a buf n s j).trace =
    s.trace ++ chunkEntries s.cfg s.env d m t a buf n j := by
  cases j <;> simp [afterChunks]

/-- What stands in `RBUF` below the offset of chunk `j` of a read. -/
theorem afterChunks_rbuf_take {j : Nat} (hj : j ≤ chunkCount s.cfg n)
    (h : chunksAnswered s.cfg s.env .read n j) :
    (afterChunks .read m t a buf n s j).rbuf.take (chunkOff s.cfg j) =
      chunksReceived s.cfg s.env .read n j := by
  cases j with
  | zero => simp [chunkOff]
  | succ j =>
    have := chunksReceived_length hj h
    show (chunksReceived s.cfg s.env .read n (j + 1)).take _ = _
    exact List.take_of_length_le (by omega)

/-- One chunk answered `Ok`. -/
theorem burstChunks_ok {j left : Nat} (h0 : s.k = 0)
    (hc : burstRejected s.cfg a n = false) (hj : j < chunkCount s.cfg n)
    (h : chunksAnswered s.cfg s.env d n (j + 1)) :
    burstChunks d m t a buf n (left + 1) (afterChunks d m t a buf n s j) =
      burstChunks d m t a buf n left (afterChunks d m t a buf n s (j + 1)) := by
  obtain ⟨rx, hrx⟩ := (BusAnswer.isOk_iff _).1 (h j (Nat.lt_succ_self j))
  have hv := chunk_header_valid hc hj m t d
  have hb := encodeHeader_eq_header hv
  have hrx' := hrx
  simp only [chunkAnswer] at hrx
  simp only [burstChunks, State.evalHeader_hdr, State.evalHeader_cfg, State.evalHeader_k,
    State.evalHeader_env, afterChunks_cfg, afterChunks_k h0, afterChunks_env, hb, hrx]
  congr 1
  have hr : d = .read → (afterChunks d m t a buf n s j).rbuf.take (chunkOff s.cfg j) ++ rx =
      chunksReceived s.cfg s.env .read n (j + 1) := by
    rintro rfl
    rw [afterChunks_rbuf_take (Nat.le_of_lt hj) fun k hk => h k (Nat.lt_succ_of_lt hk),
      chunksReceived_succ, hrx']
    rfl
  have he : chunkEntry s.cfg s.env d m t a buf n j =
      { tx := [m, t, headerByte2 (dirBit s.cfg.dirWrite d) (BitVec.ofNat 7 (chunkAddr s.cfg a j))] ++
          frameData d (slice buf (chunkOff s.cfg j) (chunkLen s.cfg n j))
        rxLen := frameRxLen d (chunkLen s.cfg n j)
        answer := .ok rx } := by
    simp [chunkEntry, hb, HeaderOut.bytes, hrx']
  cases d with
  | write =>
    cases j with
    | zero =>
      rw [Env.after_zero] at hrx
      simp [afterChunks, State.evalHeader, State.busTxn, State.storeChunk, State.setK,
        chunkEntries_succ, he, hb, hrx, ← Env.afterAnswer_after]
    | succ j =>
      simp [afterChunks, State.evalHeader, State.busTxn, State.storeChunk, State.setK,
        chunkEntries_succ, he, hb, hrx, Env.afterAnswer_after]
  | read =>
    have hr := hr rfl
    cases j with
    | zero =>
      simp only [afterChunks] at hr ⊢
      simp [State.evalHeader, State.busTxn, State.storeChunk, State.setK, chunkEntries_succ, he, hb,
        hr, ← Env.afterAnswer_after]
      simpa using hrx
    | succ j =>
      simp only [afterChunks] at hr ⊢
      simp [State.evalHeader, State.busTxn, State.storeChunk, State.setK, chunkEntries_succ, he, hb,
        hr, hrx, Env.afterAnswer_after]

/-- All of the first `j` chunks answered `Ok`. -/
theorem burstChunks_after {j : Nat} (h0 : s.k = 0) (hc : burstRejected s.cfg a n = false)
    (hj : j ≤ chunkCount s.cfg n) (h : chunksAnswered s.cfg s.env d n j) :
    burstChunks d m t a buf n (chunkCount s.cfg n) s =
      burstChunks d m t a buf n (chunkCount s.cfg n - j) (afterChunks d m t a buf n s j) := by
  induction j with
  | zero => rfl
  | succ j ih =>
    rw [ih (by omega) fun k hk => h k (by omega)]
    obtain ⟨left, hl⟩ : ∃ left, chunkCount s.cfg n - j = left + 1 :=
      ⟨chunkCount s.cfg n - j - 1, by omega⟩
    rw [hl, burstChunks_ok h0 hc hj h]
    congr 1
    omega

/-- A chunk answered `Fail`. -/
theorem burstChunks_fail {j left : Nat} (h0 : s.k = 0)
    (hc : burstRejected s.cfg a n = false) (hj : j < chunkCount s.cfg n)
    (h : chunkAnswer s.cfg s.env d n j = .fail) :
    burstChunks d m t a buf n (left + 1) (afterChunks d m t a buf n s j) =
      State.raise .partialBurstFailure j
        { afterChunks d m t a buf n s j with
          hdr := encodeHeader s.cfg m t (chunkAddr s.cfg a j) d
          env := s.env.after (j + 1)
          trace := s.trace ++ chunkEntries s.cfg s.env d m t a buf n (j + 1) } := by
  have hv := chunk_header_valid hc hj m t d
  have hb := encodeHeader_eq_header hv
  have h' := h
  simp only [chunkAnswer] at h
  have he : chunkEntry s.cfg s.env d m t a buf n j =
      { tx := [m, t, headerByte2 (dirBit s.cfg.dirWrite d) (BitVec.ofNat 7 (chunkAddr s.cfg a j))] ++
          frameData d (slice buf (chunkOff s.cfg j) (chunkLen s.cfg n j))
        rxLen := frameRxLen d (chunkLen s.cfg n j)
        answer := .fail } := by
    simp [chunkEntry, hb, HeaderOut.bytes, h']
  simp only [burstChunks, State.evalHeader_hdr, State.evalHeader_cfg, State.evalHeader_k,
    State.evalHeader_env, afterChunks_cfg, afterChunks_k h0, afterChunks_env, hb, h]
  congr 1
  simp [State.evalHeader, State.busTxn, chunkEntries_succ, he, hb, h, Env.afterAnswer_after,
    afterChunks_k h0]

/-! ## A whole burst that has passed its checks -/

/-- A burst whose chunk `j` is the first answered `Fail`. -/
theorem runBurst_fail {j : Nat} (ho : s.isOpen = true) (hc : burstRejected s.cfg a n = false)
    (hj : j < chunkCount s.cfg n) (h : chunksAnswered s.cfg s.env d n j)
    (hf : chunkAnswer s.cfg s.env d n j = .fail) :
    runBurst d m t a buf n s = State.raise .partialBurstFailure j
      { afterChunks d m t a buf n ((s.setNch (chunkCount s.cfg n)).setK 0) j with
        hdr := encodeHeader s.cfg m t (chunkAddr s.cfg a j) d
        env := s.env.after (j + 1)
        trace := s.trace ++ chunkEntries s.cfg s.env d m t a buf n (j + 1) } := by
  have hn : n ≠ 0 := by rintro rfl; simp at hj
  obtain ⟨left, hl⟩ : ∃ left, chunkCount s.cfg n - j = left + 1 :=
    ⟨chunkCount s.cfg n - j - 1, by omega⟩
  have e := burstChunks_after (m := m) (t := t) (buf := buf)
    (s := (s.setNch (chunkCount s.cfg n)).setK 0) rfl hc (Nat.le_of_lt hj) h
  simp only [State.setK_cfg, State.setNch_cfg, hl] at e
  simp only [runBurst, ho, hn, if_true, if_false, State.setNch_cfg, hc, Bool.false_eq_true]
  rw [e]
  exact burstChunks_fail (s := (s.setNch (chunkCount s.cfg n)).setK 0) rfl hc hj hf

/-- A burst whose chunks are all answered `Ok`. -/
theorem runBurst_ok (ho : s.isOpen = true) (hn : 0 < n) (hc : burstRejected s.cfg a n = false)
    (h : chunksAnswered s.cfg s.env d n (chunkCount s.cfg n)) :
    runBurst d m t a buf n s = State.respond
      (match d with
        | .write => .absent
        | .read => .buffer (chunksReceived s.cfg s.env .read n (chunkCount s.cfg n)))
      (afterChunks d m t a buf n ((s.setNch (chunkCount s.cfg n)).setK 0) (chunkCount s.cfg n)) := by
  have h0 : n ≠ 0 := by omega
  have e := burstChunks_after (m := m) (t := t) (buf := buf)
    (s := (s.setNch (chunkCount s.cfg n)).setK 0) rfl hc (Nat.le_refl _) h
  simp only [State.setK_cfg, State.setNch_cfg, Nat.sub_self] at e
  simp only [runBurst, ho, h0, if_true, if_false, State.setNch_cfg, hc, Bool.false_eq_true]
  rw [e, burstChunks]
  congr 1
  cases d with
  | write => rfl
  | read =>
    have hlen := chunksReceived_length (Nat.le_refl _) h
    have hle := le_chunkOff_chunkCount s.cfg n
    have hpos := chunkCount_pos (cfg := s.cfg) hn
    obtain ⟨l, hl⟩ : ∃ l, chunkCount s.cfg n = l + 1 := ⟨chunkCount s.cfg n - 1, by omega⟩
    simp only [burstData]
    congr 1
    rw [hl] at hlen hle ⊢
    show (chunksReceived s.cfg s.env .read n (l + 1)).take n = _
    exact List.take_of_length_le (by omega)

end Sys2Proof.Machine
end

