-- ==== Sys2Proof/Laws/Ops.lean ====
section
/-! SUPPORT. What each shared operation can do, said once: acceptance, a bus transaction, the ways a command completes. -/

namespace Sys2Proof.Machine

/-! ## Acceptance (70_reset_and_hazards.md R213) -/

theorem State.accepting_idle {s : State} (h : s.busy = false)
    (run : State → Host.Outcome State Fault Refusal) : s.accepting run = run s := by
  simp [State.accepting, h]

theorem State.accepting_busy {s : State} (h : s.busy = true)
    (run : State → Host.Outcome State Fault Refusal) : s.accepting run = .next s := by
  simp [State.accepting, h]

/-! ## The answers to the two single-byte transactions (20_memory.md R56) -/

/-- A write is answered `Fail` or `Ok` without bytes. -/
theorem Env.answer_zero (e : Env) : e.answer 0 = .fail ∨ e.answer 0 = .ok [] := by
  cases h : e.answer 0 with
  | fail => exact .inl rfl
  | ok rx => exact .inr (by rw [List.length_eq_zero_iff.1 (Env.answer_length h)])

/-- A one-byte read is answered `Fail` or `Ok` with one byte. -/
theorem Env.answer_one (e : Env) : e.answer 1 = .fail ∨ ∃ b, e.answer 1 = .ok [b] := by
  cases h : e.answer 1 with
  | fail => exact .inl rfl
  | ok rx =>
    obtain ⟨b, rfl⟩ := List.length_eq_one_iff.1 (Env.answer_length h)
    exact .inr ⟨b, rfl⟩

/-! ## Completion (60_exceptions.md R190) -/

theorem errorResponse_wf (st : Status) (k : Nat) : (errorResponse st k).wf :=
  ⟨fun _ => rfl, fun h => if_neg h⟩

theorem okResponse_wf (data : RespData) :
    Response.wf { status := .ok, data := data, chunksOk := 0 } :=
  ⟨fun h => absurd rfl h, fun _ => rfl⟩

/-- Completing forgets where the sequencer was. -/
theorem State.finish_setPhase (s : State) (p : Phase) (r : Response) :
    (s.setPhase p).finish r = s.finish r := by
  unfold State.finish; split <;> rfl

/-- A successful completion writes the status registers, the response and `BUSY`, and nothing else. -/
theorem State.respond_eq (s : State) (data : RespData) : s.respond data =
    { s with
      lastStatus := .ok
      chunksOk := 0
      responses := s.responses ++ [{ status := .ok, data := data, chunksOk := 0 }]
      phase := .idle } := rfl

/-- An error writes those too, and leaves what `spoil` says in `RDATA` and `RBUF` (10_state.md R33). -/
theorem State.raise_eq {st : Status} (h : st ≠ .ok) (s : State) (k : Nat) : s.raise st k =
    { s.spoil st with
      lastStatus := st
      chunksOk := chunksOkOf st k
      responses := s.responses ++ [errorResponse st k]
      phase := .idle } := by
  simp [State.raise, State.finish, errorResponse, h]

end Sys2Proof.Machine
end

