-- ==== Sys2Proof/Laws/Exec.lean ====
section
/-! SUPPORT. What each transfer operation of an idle block gives, case by case, as one whole next state. -/

namespace Sys2Proof.Machine

variable {s : State} {m t a v b : Byte}

/-- The address of a transfer can be put in a header (30_encoding.md R94). -/
theorem encodeHeader_valid {cfg : Params} {x : Nat} (h : ¬(0x7F < x ∧ cfg.addrOverflow = .reject))
    (m t : Byte) (d : Direction) : encodeHeader cfg m t x d ≠ .invalidAddress :=
  mt (encodeHeader_invalid_iff cfg m t x d).1 h

/-! ## WRITE_BYTE (41_single_transfer.md R121) -/

theorem exec_writeByte_closed (hb : s.busy = false) (ho : s.isOpen = false) :
    exec (.writeByte m t a v) s =
      .next ((s.latch (.writeByte m t a v)).raise .notOpen 0) := by
  simp [exec, execWriteByte, State.accepting_idle hb, ho]

theorem exec_writeByte_rejected (hb : s.busy = false) (ho : s.isOpen = true)
    (h : 0x7F < a.toNat ∧ s.cfg.addrOverflow = .reject) :
    exec (.writeByte m t a v) s =
      .next (((s.latch (.writeByte m t a v)).evalHeader m t a.toNat .write).raise
        .invalidAddress 0) := by
  have e := (encodeHeader_invalid_iff s.cfg m t a.toNat .write).2 h
  simp [exec, execWriteByte, State.accepting_idle hb, ho, e]

theorem exec_writeByte_failed (hb : s.busy = false) (ho : s.isOpen = true)
    (h : ¬(0x7F < a.toNat ∧ s.cfg.addrOverflow = .reject)) (hf : s.env.answer 0 = .fail) :
    exec (.writeByte m t a v) s =
      .next ((((s.latch (.writeByte m t a v)).evalHeader m t a.toNat .write).busTxn
        ((encodeHeader s.cfg m t a.toNat .write).bytes ++ [v]) 0).raise .busIoError 0) := by
  have e := encodeHeader_eq_header (encodeHeader_valid h m t .write)
  simp [exec, execWriteByte, State.accepting_idle hb, ho, e, hf, HeaderOut.bytes]

theorem exec_writeByte_ok (hb : s.busy = false) (ho : s.isOpen = true)
    (h : ¬(0x7F < a.toNat ∧ s.cfg.addrOverflow = .reject)) (hk : s.env.answer 0 = .ok []) :
    exec (.writeByte m t a v) s =
      .next ((((s.latch (.writeByte m t a v)).evalHeader m t a.toNat .write).busTxn
        ((encodeHeader s.cfg m t a.toNat .write).bytes ++ [v]) 0).respond .absent) := by
  have e := encodeHeader_eq_header (encodeHeader_valid h m t .write)
  simp [exec, execWriteByte, State.accepting_idle hb, ho, e, hk, HeaderOut.bytes]

/-! ## READ_BYTE (41_single_transfer.md R122) -/

theorem exec_readByte_closed (hb : s.busy = false) (ho : s.isOpen = false) :
    exec (.readByte m t a) s = .next ((s.latch (.readByte m t a)).raise .notOpen 0) := by
  simp [exec, execReadByte, State.accepting_idle hb, ho]

theorem exec_readByte_rejected (hb : s.busy = false) (ho : s.isOpen = true)
    (h : 0x7F < a.toNat ∧ s.cfg.addrOverflow = .reject) :
    exec (.readByte m t a) s =
      .next (((s.latch (.readByte m t a)).evalHeader m t a.toNat .read).raise
        .invalidAddress 0) := by
  have e := (encodeHeader_invalid_iff s.cfg m t a.toNat .read).2 h
  simp [exec, execReadByte, State.accepting_idle hb, ho, e]

theorem exec_readByte_failed (hb : s.busy = false) (ho : s.isOpen = true)
    (h : ¬(0x7F < a.toNat ∧ s.cfg.addrOverflow = .reject)) (hf : s.env.answer 1 = .fail) :
    exec (.readByte m t a) s =
      .next ((((s.latch (.readByte m t a)).evalHeader m t a.toNat .read).busTxn
        (encodeHeader s.cfg m t a.toNat .read).bytes 1).raise .busIoError 0) := by
  have e := encodeHeader_eq_header (encodeHeader_valid h m t .read)
  simp [exec, execReadByte, State.accepting_idle hb, ho, e, hf, HeaderOut.bytes]

theorem exec_readByte_ok (hb : s.busy = false) (ho : s.isOpen = true)
    (h : ¬(0x7F < a.toNat ∧ s.cfg.addrOverflow = .reject)) (hk : s.env.answer 1 = .ok [b]) :
    exec (.readByte m t a) s =
      .next (((((s.latch (.readByte m t a)).evalHeader m t a.toNat .read).busTxn
        (encodeHeader s.cfg m t a.toNat .read).bytes 1).setRdata b).respond (.byte b)) := by
  have e := encodeHeader_eq_header (encodeHeader_valid h m t .read)
  simp [exec, execReadByte, State.accepting_idle hb, ho, e, hk, HeaderOut.bytes]

/-! ## Bursts (42_burst.md R144, R145): the cases of `runBurst` -/

theorem exec_writeBurst (hb : s.busy = false) (buf : List Byte) :
    exec (.writeBurst m t a buf) s =
      .next (runBurst .write m t a buf buf.length (s.latch (.writeBurst m t a buf))) := by
  simp [exec, execWriteBurst, State.accepting_idle hb]

theorem exec_readBurst (hb : s.busy = false) (n : Nat) :
    exec (.readBurst m t a n) s =
      .next (runBurst .read m t a [] n (s.latch (.readBurst m t a n))) := by
  simp [exec, execReadBurst, State.accepting_idle hb]

theorem runBurst_closed (ho : s.isOpen = false) (d : Direction) (buf : List Byte) (n : Nat) :
    runBurst d m t a buf n s = s.raise .notOpen 0 := by
  simp [runBurst, ho]

theorem runBurst_empty (ho : s.isOpen = true) (d : Direction) (buf : List Byte) :
    runBurst d m t a buf 0 s = s.respond (burstData d 0 s) := by
  simp [runBurst, ho]

theorem runBurst_rejected {n : Nat} (ho : s.isOpen = true) (hn : 0 < n)
    (h : burstRejected s.cfg a n = true) (d : Direction) (buf : List Byte) :
    runBurst d m t a buf n s = (s.setNch (chunkCount s.cfg n)).raise .invalidAddress 0 := by
  have h0 : n ≠ 0 := by omega
  simp [runBurst, ho, h0, h]

end Sys2Proof.Machine
end

