-- ==== Sys2Proof/Laws/PerInstr.lean ====
section
/-! SUPPORT. The family `WfDecodes`: what a request decodes to is well formed, one lemma per constructor. -/

namespace Sys2Proof.Laws.WfDecodes

open Sys2Proof

/-- An operation that some request decodes to is well formed, whatever `DIR_WRITE` is. -/
def Statement (i : Instr) : Prop := ∀ (d : Bool) (w : Request), decode d w = .ok i → i.wf = true

/-- A header word decodes to an encoder call within the representable range (30_encoding.md R83). -/
theorem decodeHeader_wf (d : Bool) (h : HeaderWord) : (decodeHeader d h).wf = true := by
  have := (byte2Addr (headerB2 h)).isLt
  unfold decodeHeader
  split <;> exact decide_eq_true (by omega)

/-- A header word decodes to nothing but an encoder call. -/
theorem of_header {d : Bool} {w : Request} {i : Instr} (hw : decode d w = .ok i)
    (h : ∀ r, w ≠ .command r) : i.wf = true := by
  cases w with
  | command r => exact absurd rfl (h r)
  | header x => cases hw; exact decodeHeader_wf d x

/-- A command record decodes to no encoder call. -/
theorem of_command {r : CommandRecord} {i : Instr} (h : decodeCommand r = .ok i) :
    i.isCommand = true := by
  unfold decodeCommand at h
  split at h <;> cases h <;> rfl

theorem openBus : Statement .openBus := fun _ _ _ => rfl

theorem closeBus : Statement .closeBus := fun _ _ _ => rfl

theorem writeByte (m t a v : Byte) : Statement (.writeByte m t a v) := fun _ _ _ => rfl

theorem readByte (m t a : Byte) : Statement (.readByte m t a) := fun _ _ _ => rfl

theorem writeBurst (m t a : Byte) (buf : List Byte) : Statement (.writeBurst m t a buf) :=
  fun _ _ _ => rfl

theorem readBurst (m t a : Byte) (n : Nat) : Statement (.readBurst m t a n) := fun _ _ _ => rfl

theorem encodeHeaderW (m t : Byte) (a : Nat) : Statement (.encodeHeaderW m t a) := by
  intro d w h
  refine of_header h fun r hr => ?_
  subst hr
  exact Bool.noConfusion (of_command h)

theorem encodeHeaderR (m t : Byte) (a : Nat) : Statement (.encodeHeaderR m t a) := by
  intro d w h
  refine of_header h fun r hr => ?_
  subst hr
  exact Bool.noConfusion (of_command h)

end Sys2Proof.Laws.WfDecodes
end

