-- ==== Sys2Proof/Laws/Step.lean ====
section
/-! SUPPORT. What one step can do, said once, and how steps of `core` compose. -/

namespace Sys2Proof.Machine

/-! ## Runs -/

theorem run_zero (s : State) : Sys2Proof.core.run 0 s = .next s := rfl

theorem run_next {s u : State} (h : step s = .next u) (n : Nat) :
    Sys2Proof.core.run (n + 1) s = Sys2Proof.core.run n u := by
  simp only [Host.Core.run]
  rw [show Sys2Proof.core.step s = .next u from h]

theorem run_fault {s : State} {f : Fault} (h : step s = .fault f) (n : Nat) :
    Sys2Proof.core.run (n + 1) s = .fault f := by
  simp only [Host.Core.run]
  rw [show Sys2Proof.core.step s = .fault f from h]

theorem step_busy {s : State} (h : s.busy = true) : step s = .next (sequencerStep s) := by
  simp [step, h]

theorem run_busy {s : State} (h : s.busy = true) (n : Nat) :
    Sys2Proof.core.run (n + 1) s = Sys2Proof.core.run n (sequencerStep s) := run_next (step_busy h) n

/-! ## Operations that are no command -/

/-- An encoder call changes `HDR` alone (40_header_encoder.md R110). -/
theorem exec_of_header {i : Instr} (h : i.isCommand = false) (s : State) :
    ∃ x, exec i s = .next { s with hdr := x } := by
  cases i <;> first | exact ⟨_, rfl⟩ | cases h

/-- *Accept* of an encoder call does all of it. -/
theorem acceptStep_of_header {i : Instr} (h : i.isCommand = false) {s : State}
    (hb : s.busy = false) : acceptStep i s = exec i s := by
  unfold acceptStep
  rw [State.accepting_idle hb]
  cases i <;> first | rfl | cases h

/-! ## The step -/

/-- The ways a step gives a next state: it goes on with a command, waits, or takes the request presented. -/
theorem step_cases {s u : State} (h : step s = .next u) :
    (s.busy = true ∧ u = sequencerStep s) ∨
    (s.busy = false ∧ s.host = [] ∧ u = s) ∨
    (s.busy = false ∧ ∃ w rest i, s.host = w :: rest ∧ decode s.cfg.dirWrite w = .ok i ∧
      ((s.stepwise = true ∧ acceptStep i s.takeRequest = .next u) ∨
        (s.stepwise = false ∧ exec i s.takeRequest = .next u))) := by
  cases hb : s.busy with
  | true => rw [step_busy hb] at h; cases h; exact .inl ⟨rfl, rfl⟩
  | false =>
    right
    simp only [step, hb, Bool.false_eq_true, if_false, idleStep, State.presented] at h
    cases hh : s.host with
    | nil => simp only [hh, List.head?_nil, Host.Outcome.next.injEq] at h; exact .inl ⟨rfl, rfl, h.symm⟩
    | cons w rest =>
      simp only [hh, List.head?_cons] at h
      cases hd : decode s.cfg.dirWrite w with
      | error e => cases e; simp [hd] at h
      | ok i =>
        simp only [hd, takeInstr] at h
        refine .inr ⟨rfl, w, rest, i, rfl, hd, ?_⟩
        cases hs : s.stepwise <;> simp [hs] at h <;> simp [h]

/-! ## What the steps of a command leave alone -/

/-- The elements only acceptance and completion change. -/
structure SameCommand (s u : State) : Prop where
  host : u.host = s.host
  cmd : u.cmd = s.cmd
  wbuf : u.wbuf = s.wbuf
  cfg : u.cfg = s.cfg
  responses : u.responses = s.responses
  stepwise : u.stepwise = s.stepwise
  isOpen : u.isOpen = s.isOpen

theorem SameCommand.refl (s : State) : SameCommand s s := ⟨rfl, rfl, rfl, rfl, rfl, rfl, rfl⟩

theorem SameCommand.trans {s u w : State} (h : SameCommand s u) (h' : SameCommand u w) :
    SameCommand s w :=
  ⟨h'.host.trans h.host, h'.cmd.trans h.cmd, h'.wbuf.trans h.wbuf, h'.cfg.trans h.cfg,
    h'.responses.trans h.responses, h'.stepwise.trans h.stepwise, h'.isOpen.trans h.isOpen⟩

theorem startTxn_same (d : Direction) (a : Nat) (x : List Byte) (l : Nat) (s : State) :
    SameCommand s (startTxn d a x l s) ∧ (startTxn d a x l s).trace = s.trace := by
  simp only [startTxn]
  split <;> exact ⟨⟨rfl, rfl, rfl, rfl, rfl, rfl, rfl⟩, rfl⟩

theorem issueStep_same (s : State) :
    SameCommand s (issueStep s) ∧ (issueStep s).trace = s.trace := by
  unfold issueStep
  split <;> first | exact ⟨.refl s, rfl⟩ | exact startTxn_same ..

theorem chunkAnswered_same (d : Direction) (rx : List Byte) (s : State) :
    SameCommand s (chunkAnswered d rx s) ∧ (chunkAnswered d rx s).trace = s.trace := by
  simp only [chunkAnswered]
  split <;> cases d <;> exact ⟨⟨rfl, rfl, rfl, rfl, rfl, rfl, rfl⟩, rfl⟩

theorem answeredOk_same (rx : List Byte) (s : State) :
    SameCommand s (answeredOk rx s) ∧ (answeredOk rx s).trace = s.trace := by
  unfold answeredOk
  split <;> first
    | exact ⟨⟨rfl, rfl, rfl, rfl, rfl, rfl, rfl⟩, rfl⟩
    | exact chunkAnswered_same ..

theorem answeredFail_same (s : State) :
    SameCommand s (answeredFail s) ∧ (answeredFail s).trace = s.trace := by
  unfold answeredFail
  split <;> exact ⟨⟨rfl, rfl, rfl, rfl, rfl, rfl, rfl⟩, rfl⟩

/-- *Answer* adds the one entry of the transaction in flight. -/
theorem answerStep_same (tx : List Byte) (n : Nat) (s : State) :
    SameCommand s (answerStep tx n s) ∧
      (answerStep tx n s).trace = s.trace ++ [{ tx := tx, rxLen := n, answer := s.env.answer n }] := by
  have hb : SameCommand s (s.busTxn tx n) := ⟨rfl, rfl, rfl, rfl, rfl, rfl, rfl⟩
  unfold answerStep
  split
  · obtain ⟨h, ht⟩ := answeredFail_same (s.busTxn tx n)
    exact ⟨hb.trans h, ht⟩
  · rename_i rx _
    obtain ⟨h, ht⟩ := answeredOk_same rx (s.busTxn tx n)
    exact ⟨hb.trans h, ht⟩

/-- The one thing *Complete* does before the response: `OPEN`, for a successful session operation. -/
theorem sessionEffect_eq (r : Response) (s : State) :
    sessionEffect r s = s.setOpen (sessionEffect r s).isOpen := by
  unfold sessionEffect
  split
  · split <;> rfl
  · rfl

/-- The response of a command that is no successful session operation leaves `OPEN` alone. -/
theorem sessionEffect_of_error {r : Response} (h : r.status ≠ .ok) (s : State) :
    sessionEffect r s = s := if_neg h

theorem sessionEffect_of_transfer {s : State} (h1 : s.cmd.op ≠ .openBus)
    (h2 : s.cmd.op ≠ .closeBus) (r : Response) : sessionEffect r s = s := by
  unfold sessionEffect
  split
  · cases h : s.cmd.op <;> first | rfl | exact absurd h h1 | exact absurd h h2
  · rfl

/-- The last step of a command whose completion leaves `OPEN` alone. -/
theorem run_complete {s : State} {r : Response} (h : sessionEffect r s = s) :
    Sys2Proof.core.run 1 (s.complete r) = .next (s.finish r) := by
  have e : sessionEffect r (s.setPhase (.completing r)) = s.setPhase (.completing r) := by
    have : sessionEffect r (s.setPhase (.completing r)) =
        (sessionEffect r s).setPhase (.completing r) := by
      unfold sessionEffect
      split
      · simp only [State.setPhase_cmd]; split <;> rfl
      · rfl
    rw [this, h]
  rw [run_busy rfl, run_zero]
  simp only [sequencerStep, State.complete, State.setPhase_phase, completeStep]
  rw [e, State.finish_setPhase]

end Sys2Proof.Machine
end

