-- ==== Sys2Proof/Tests/Slice0.lean ====
section
/-! SUPPORT. The model's own tests. Expected results are those of spec/95_test_vectors.md, by the vector's name, or the
tables of spec/30_encoding.md written out by hand. Then a witness for every statement that has hypotheses. -/

namespace Sys2Proof.Tests

open Sys2Proof Sys2Proof.Machine

/-! ## Small states -/

/-- `C = 4`, stride `S`, `DIR_WRITE = 1`, `REJECT`: the parameters of most vectors. -/
def cfg4 (stride : Nat) : Params where
  chunkMax := 4
  stride := stride
  dirWrite := true
  addrOverflow := .reject
  chunkMax_pos := by decide
  chunkMax_le := by decide

/-- An idle block whose environment will give these answers. -/
def idle (cfg : Params) (isOpen : Bool) (answers : List BusAnswer) (avails : List Bool := []) : State :=
  { State.reset with
    cfg := cfg
    isOpen := isOpen
    env := { answers := answers, avails := avails, draws := 0 } }

/-- An open block with `S = 0`. -/
def opened (answers : List BusAnswer) : State := idle (cfg4 0) true answers

/-- The next state, if there is one. -/
def nextOf (o : Host.Outcome State Fault Refusal) : Option State :=
  match o with
  | .next s => some s
  | .fault _ => none
  | .refused _ => none

/-- What the outside sees after one operation: the trace and the responses. -/
def seen (i : Instr) (s : State) : Option (List TraceEntry × List Response) :=
  (nextOf (exec i s)).map fun u => (u.trace, u.responses)

/-- A response without data. -/
def bare (st : Status) (k : Nat := 0) : Response := { status := st, data := .absent, chunksOk := k }

/-! ## Well-formedness: one ill-formed term for each check -/

/-- 30_encoding.md R94: 0x80 is the first address outside the representable range; V-E9. -/
theorem test_wf_refuses_write_header_0x80 : (Instr.encodeHeaderW 0x00#8 0x00#8 0x80).wf = false := by
  decide

theorem test_wf_refuses_read_header_0x80 : (Instr.encodeHeaderR 0x00#8 0x00#8 0x80).wf = false := by
  decide

theorem test_wf_accepts_0x7F : (Instr.encodeHeaderW 0xFF#8 0xFF#8 0x7F).wf = true := by decide

/-! ## Decoding: one word for every constructor -/

/-- 30_encoding.md R92, code 0x00. -/
theorem test_decode_open :
    decode true (.command ⟨0x00#8, 1#8, 2#8, 3#8, 4#8, 5, [6#8]⟩) = .ok .openBus := by rfl

/-- Code 0x01. -/
theorem test_decode_close :
    decode true (.command ⟨0x01#8, 1#8, 2#8, 3#8, 4#8, 5, [6#8]⟩) = .ok .closeBus := by rfl

/-- Code 0x02; R91: mode, target, address, value. -/
theorem test_decode_write_byte :
    decode true (.command ⟨0x02#8, 1#8, 2#8, 3#8, 4#8, 5, [6#8]⟩) =
      .ok (.writeByte 1#8 2#8 3#8 4#8) := by rfl

/-- Code 0x03. -/
theorem test_decode_read_byte :
    decode true (.command ⟨0x03#8, 1#8, 2#8, 3#8, 4#8, 5, [6#8]⟩) = .ok (.readByte 1#8 2#8 3#8) := by
  rfl

/-- Code 0x04; the length is that of the buffer. -/
theorem test_decode_write_burst :
    decode true (.command ⟨0x04#8, 1#8, 2#8, 3#8, 4#8, 5, [6#8]⟩) =
      .ok (.writeBurst 1#8 2#8 3#8 [6#8]) := by rfl

/-- Code 0x05. -/
theorem test_decode_read_burst :
    decode true (.command ⟨0x05#8, 1#8, 2#8, 3#8, 4#8, 5, [6#8]⟩) =
      .ok (.readBurst 1#8 2#8 3#8 5) := by rfl

/-- R97: the first and the last reserved code. -/
theorem test_decode_reserved :
    decode true (.command ⟨0x06#8, 0#8, 0#8, 0#8, 0#8, 0, []⟩) = .error (.reservedOp 0x06#8) ∧
      decode true (.command ⟨0xFF#8, 0#8, 0#8, 0#8, 0#8, 0, []⟩) = .error (.reservedOp 0xFF#8) := by
  exact ⟨rfl, rfl⟩

/-- R102, the decode check of 95_test_vectors.md: `01 03 AA`, bit by bit `mmmmmmmm tttttttt Daaaaaaa`. -/
theorem test_decode_header_write :
    decode true (.header 0b00000001_00000011_10101010#24) = .ok (.encodeHeaderW 0x01#8 0x03#8 0x2A) := by
  decide

/-- V-E13: `01 03 2A`. -/
theorem test_decode_header_read :
    decode true (.header 0b00000001_00000011_00101010#24) = .ok (.encodeHeaderR 0x01#8 0x03#8 0x2A) := by
  decide

/-- The opcode table's rows: an 8-bit `op`, and a 24-bit header with bit 7 set or clear. -/
theorem test_table_words :
    decodeTableWord 8 0x00 = some .openBus ∧ decodeTableWord 8 0x01 = some .closeBus ∧
    decodeTableWord 8 0x02 = some (.writeByte 0#8 0#8 0#8 0#8) ∧
    decodeTableWord 8 0x03 = some (.readByte 0#8 0#8 0#8) ∧
    decodeTableWord 8 0x04 = some (.writeBurst 0#8 0#8 0#8 []) ∧
    decodeTableWord 8 0x05 = some (.readBurst 0#8 0#8 0#8 0) ∧
    decodeTableWord 24 0x000080 = some (.encodeHeaderW 0#8 0#8 0) ∧
    decodeTableWord 24 0x000000 = some (.encodeHeaderR 0#8 0#8 0) := by
  decide

/-- R97: a table word of 8 bits whose code is reserved, the first and the last, is no operation, and a step that takes it
refuses it. -/
theorem test_table_words_reserved :
    decodeTableWord 8 0x06 = none ∧ decodeTableWord 8 0xFF = none ∧
      step (State.reset.withFetchWord 8 0x06) = .refused (.reservedOp 0x06#8) :=
  ⟨rfl, rfl, rfl⟩

/-! ## The header encoder -/

/-- V-E12 and V-E14. -/
theorem test_encode_write :
    ((nextOf (exec (.encodeHeaderW 0x01#8 0x03#8 0x2A) (opened []))).map State.hdr =
      some (.header 0x01#8 0x03#8 0xAA#8)) ∧
    ((nextOf (exec (.encodeHeaderW 0xFF#8 0xFF#8 0x7F) (opened []))).map State.hdr =
      some (.header 0xFF#8 0xFF#8 0xFF#8)) := by
  decide

/-- V-E9, V-E15 and V-E18: rejected, masked, and the other polarity. -/
theorem test_encode_write_parameters :
    encodeHeader (cfg4 0) 0#8 0#8 0x80 .write = .invalidAddress ∧
    encodeHeader { cfg4 0 with addrOverflow := .mask } 0#8 0#8 0xAA .write = .header 0#8 0#8 0xAA#8 ∧
    encodeHeader { cfg4 0 with dirWrite := false } 0#8 0#8 0x55 .write = .header 0#8 0#8 0x55#8 := by
  decide

/-- V-E4 and V-E8. -/
theorem test_encode_read :
    ((nextOf (exec (.encodeHeaderR 0#8 0#8 0x55) (opened []))).map State.hdr =
      some (.header 0#8 0#8 0x55#8)) ∧
    ((nextOf (exec (.encodeHeaderR 0#8 0#8 0x7F) (opened []))).map State.hdr =
      some (.header 0#8 0#8 0x7F#8)) := by
  decide

/-- V-E16 and V-E20. -/
theorem test_encode_read_parameters :
    encodeHeader { cfg4 0 with addrOverflow := .mask } 0#8 0#8 0xAA .read = .header 0#8 0#8 0x2A#8 ∧
    encodeHeader { cfg4 0 with dirWrite := false } 1#8 3#8 0x2A .read = .header 1#8 3#8 0xAA#8 := by
  decide

/-! ## Single-byte transfers -/

/-- V-T11: the data byte 0x80 is sent unchanged. -/
theorem test_write_byte : seen (.writeByte 1#8 3#8 0x2A#8 0x80#8) (opened [.ok []]) =
    some ([⟨[1#8, 3#8, 0xAA#8, 0x80#8], 0, .ok []⟩], [bare .ok]) := by
  decide

/-- V-T5 and V-T7. -/
theorem test_write_byte_errors :
    seen (.writeByte 0#8 0#8 0x80#8 1#8) (opened [.ok []]) = some ([], [bare .invalidAddress]) ∧
    seen (.writeByte 0#8 0#8 0x55#8 0x96#8) (opened [.fail]) =
      some ([⟨[0#8, 0#8, 0xD5#8, 0x96#8], 0, .fail⟩], [bare .busIoError]) := by
  decide

/-- V-T2. -/
theorem test_read_byte :
    seen (.readByte 0#8 0#8 0x55#8) (opened [.ok [0x3C#8]]) =
      some ([⟨[0#8, 0#8, 0x55#8], 1, .ok [0x3C#8]⟩], [⟨.ok, .byte 0x3C#8, 0⟩]) ∧
    (nextOf (exec (.readByte 0#8 0#8 0x55#8) (opened [.ok [0x3C#8]]))).map State.rdata =
      some 0x3C#8 := by
  decide

/-- V-T8 and V-T10: the closed block beats the bad address. -/
theorem test_read_byte_errors :
    seen (.readByte 0#8 0#8 0x55#8) (opened [.fail]) =
      some ([⟨[0#8, 0#8, 0x55#8], 1, .fail⟩], [bare .busIoError]) ∧
    seen (.readByte 0#8 0#8 0xAA#8) (idle (cfg4 0) false []) = some ([], [bare .notOpen]) := by
  decide

/-! ## Bursts -/

/-- R174, R186: a closed block writes no buffer. -/
theorem test_closed_read_burst_keeps_buffer :
    (nextOf (exec (.readBurst 0#8 0#8 0x55#8 2)
      { idle (cfg4 0) false [] with rbuf := [0xA0#8, 0xA1#8] })).map State.rbuf =
        some [0xA0#8, 0xA1#8] := by
  rfl

/-- V-B3: `S = 1`, three chunks, the last partial. -/
theorem test_write_burst :
    seen (.writeBurst 0#8 0#8 0x55#8 [0#8, 1#8, 2#8, 3#8, 4#8, 5#8, 6#8, 7#8, 8#8, 9#8])
        (idle (cfg4 1) true [.ok [], .ok [], .ok []]) =
      some ([⟨[0#8, 0#8, 0xD5#8, 0#8, 1#8, 2#8, 3#8], 0, .ok []⟩,
        ⟨[0#8, 0#8, 0xD6#8, 4#8, 5#8, 6#8, 7#8], 0, .ok []⟩,
        ⟨[0#8, 0#8, 0xD7#8, 8#8, 9#8], 0, .ok []⟩], [bare .ok]) := by
  decide

/-- V-B17, and V-B14: rejected before chunk 0. -/
theorem test_write_burst_errors :
    seen (.writeBurst 0#8 0#8 0x55#8 [0#8, 1#8, 2#8, 3#8, 4#8, 5#8, 6#8, 7#8, 8#8, 9#8])
        (opened [.ok [], .fail]) =
      some ([⟨[0#8, 0#8, 0xD5#8, 0#8, 1#8, 2#8, 3#8], 0, .ok []⟩,
        ⟨[0#8, 0#8, 0xD5#8, 4#8, 5#8, 6#8, 7#8], 0, .fail⟩], [bare .partialBurstFailure 1]) ∧
    seen (.writeBurst 0#8 0#8 0x7E#8 [0#8, 1#8, 2#8, 3#8, 4#8, 5#8, 6#8, 7#8, 8#8, 9#8])
        (idle (cfg4 1) true []) = some ([], [bare .invalidAddress]) := by
  decide

/-- V-B12: `S = 4`. -/
theorem test_read_burst :
    seen (.readBurst 0#8 0#8 0x55#8 6)
        (idle (cfg4 4) true [.ok [0xA0#8, 0xA1#8, 0xA2#8, 0xA3#8], .ok [0xA4#8, 0xA5#8]]) =
      some ([⟨[0#8, 0#8, 0x55#8], 4, .ok [0xA0#8, 0xA1#8, 0xA2#8, 0xA3#8]⟩,
        ⟨[0#8, 0#8, 0x59#8], 2, .ok [0xA4#8, 0xA5#8]⟩],
        [⟨.ok, .buffer [0xA0#8, 0xA1#8, 0xA2#8, 0xA3#8, 0xA4#8, 0xA5#8], 0⟩]) := by
  decide

/-- V-P3: length 0 beats the bad address; V-P4. -/
theorem test_read_burst_priority :
    seen (.readBurst 0#8 0#8 0xAA#8 0) (opened []) = some ([], [⟨.ok, .buffer [], 0⟩]) ∧
    seen (.readBurst 0#8 0#8 0xAA#8 1) (opened [.fail]) = some ([], [bare .invalidAddress]) := by
  decide

/-- The chunk table of R141: 2500 bytes with `C = 16` are 157 chunks, 156 of 16 and one of 4. -/
theorem test_chunks_2500_by_16 :
    let cfg : Params := { cfg4 0 with chunkMax := 16, chunkMax_pos := by decide, chunkMax_le := by decide }
    chunkCount cfg 2500 = 157 ∧ chunkLen cfg 2500 155 = 16 ∧ chunkLen cfg 2500 156 = 4 := by
  decide

/-! ## Session -/

/-- V-S1 and V-S2. -/
theorem test_open :
    ((nextOf (exec .openBus (idle (cfg4 0) false [] [true]))).map fun u => (u.isOpen, u.lastStatus)) =
      some (true, .ok) ∧
    ((nextOf (exec .openBus (idle (cfg4 0) false [] [false]))).map fun u => (u.isOpen, u.lastStatus)) =
      some (false, .deviceUnavailable) := by
  decide

/-- V-S4: the first session stays. -/
theorem test_open_twice :
    ((nextOf (exec .openBus (opened []))).map fun u => (u.isOpen, u.lastStatus)) =
      some (true, .deviceUnavailable) := by
  decide

/-- V-S3, first half. -/
theorem test_close :
    ((nextOf (exec .closeBus (opened []))).map fun u => (u.isOpen, u.lastStatus)) =
      some (false, .ok) := by
  decide

/-- V-S5. -/
theorem test_close_twice :
    exec .closeBus (idle (cfg4 0) false []) = .fault .closeWhileClosed := by rfl

/-! ## The step -/

/-- The state right after reset, with the word of `WRITE_BYTE` next at its command port, runs it: `NotOpen`. -/
theorem test_step_runs_fetched_word :
    (nextOf (step (State.reset.withFetchWord 8 0x02))).map
        (fun u => (u.cmd.op, u.lastStatus, u.host)) = some (.writeByte, .notOpen, []) := by
  decide

/-- Step by step: *Accept* of a read leaves the block busy and about to issue (42_burst.md R150). -/
theorem test_step_accepts :
    (nextOf (step { opened [] with
        stepwise := true, host := [encode true (.readByte 0#8 0#8 0x55#8)] })).map
      (fun u => (u.busy, u.phase, u.hdr)) = some (true, .issue, .header 0#8 0#8 0x55#8) := by
  decide

/-! ## Witnesses: states and operands that meet the hypotheses of each statement, each clause at a boundary -/

theorem witness_DecodeEncodeRoundTrip :
    (Instr.encodeHeaderW 0xFF#8 0xFF#8 0x7F).wf = true ∧ (Instr.encodeHeaderR 0#8 0#8 0).wf = true ∧
      (Instr.writeByte 0xFF#8 0xFF#8 0xFF#8 0xFF#8).wf = true := by
  decide

/-- The header `01 03 AA` (V-E12) and the call it is the header of. -/
theorem witness_EveryHeaderWordIsOneHeader :
    (Instr.encodeHeaderW 0x01#8 0x03#8 0x2A).wf = true ∧
      encode true (.encodeHeaderW 0x01#8 0x03#8 0x2A) = .header 0x0103AA#24 := by
  decide

theorem witness_EncodeHeaderIsPure : ∃ u u', Instr.isCommand (.encodeHeaderW 1#8 3#8 0x2A) = false ∧
    (opened []).cfg.dirWrite = (idle (cfg4 7) false [.fail]).cfg.dirWrite ∧
    (opened []).cfg.addrOverflow = (idle (cfg4 7) false [.fail]).cfg.addrOverflow ∧
    exec (.encodeHeaderW 1#8 3#8 0x2A) (opened []) = .next u ∧
    exec (.encodeHeaderW 1#8 3#8 0x2A) (idle (cfg4 7) false [.fail]) = .next u' :=
  ⟨_, _, rfl, rfl, rfl, rfl, rfl⟩

theorem witness_HeaderIsUnambiguous :
    ((0x7F : Nat) ≤ 0x7F ∧
      encodeHeader (cfg4 0) 1#8 3#8 0x7F .read = encodeHeader (cfg4 0) 1#8 3#8 0x7F .read) ∧
    ({ cfg4 0 with addrOverflow := .mask } : Params).addrOverflow = .mask := by
  decide

/-- Closed; 0x80 on an open block; 0x7F answered `Fail`; 0x7F answered `Ok`. -/
theorem witness_WriteByteOutcome :
    ((idle (cfg4 0) false []).busy = false ∧ (idle (cfg4 0) false []).isOpen = false) ∧
    ((opened []).busy = false ∧ (opened []).isOpen = true ∧ 0x7F < (0x80#8 : Byte).toNat ∧
      (opened []).cfg.addrOverflow = .reject) ∧
    (¬(0x7F < (0x7F#8 : Byte).toNat ∧ (opened [.fail]).cfg.addrOverflow = .reject) ∧
      (opened [.fail]).env.answer 0 = .fail) ∧
    (opened [.ok []]).env.answer 0 = .ok [] := by
  decide

/-- The same cases of a read. -/
theorem witness_ReadByteOutcome :
    ((idle (cfg4 0) false []).busy = false ∧ (idle (cfg4 0) false []).isOpen = false) ∧
    ((opened []).busy = false ∧ (opened []).isOpen = true ∧ 0x7F < (0x80#8 : Byte).toNat ∧
      (opened []).cfg.addrOverflow = .reject) ∧
    (¬(0x7F < (0x7F#8 : Byte).toNat ∧ (opened [.fail]).cfg.addrOverflow = .reject) ∧
      (opened [.fail]).env.answer 1 = .fail) ∧
    (opened [.ok [0x3C#8]]).env.answer 1 = .ok [0x3C#8] := by
  decide

/-- One transaction at 0x7F; none at 0x80 and none on a closed block. -/
theorem witness_SingleTransferIsOneTransaction :
    (opened []).busy = false ∧
    ((opened []).isOpen = true ∧
      ¬(0x7F < (0x7F#8 : Byte).toNat ∧ (opened []).cfg.addrOverflow = .reject)) ∧
    ¬((opened []).isOpen = true ∧
      ¬(0x7F < (0x80#8 : Byte).toNat ∧ (opened []).cfg.addrOverflow = .reject)) ∧
    ¬((idle (cfg4 0) false []).isOpen = true ∧
      ¬(0x7F < (0x7F#8 : Byte).toNat ∧ (idle (cfg4 0) false []).cfg.addrOverflow = .reject)) := by
  decide

theorem witness_FailedSingleTransferIsNotRetried :
    (opened [.fail]).busy = false ∧ (opened [.fail]).isOpen = true ∧
    ¬(0x7F < (0x7F#8 : Byte).toNat ∧ (opened [.fail]).cfg.addrOverflow = .reject) ∧
    (opened [.fail]).env.answer 0 = .fail ∧ (opened [.fail]).env.answer 1 = .fail := by
  decide

/-- P1 of 95_test_vectors.md: 0x96 written to 0x2A, and the fixture answers 0x96. -/
theorem witness_WriteThenReadEchoes :
    ∃ u, (opened [.ok [], .ok [0x96#8]]).busy = false ∧
      exec (.writeByte 0#8 0#8 0x2A#8 0x96#8) (opened [.ok [], .ok [0x96#8]]) = .next u ∧
      u.lastStatus = .ok ∧
      u.env.answer 1 =
        .ok [regfileValue (cfg4 0) 0#8 0#8 (BitVec.ofNat 7 (0x2A#8 : Byte).toNat) u.trace] :=
  ⟨_, rfl, rfl, by decide, by decide⟩

/-- `N = 10` (a full chunk before the last), `N = 8` (a multiple of `C`), `N = 3` (below `C`). -/
theorem witness_ChunkArithmetic :
    1 + 1 < chunkCount (cfg4 0) 10 ∧ 0 < 10 ∧ (cfg4 0).chunkMax ∣ 8 ∧ 0 < 3 ∧
      3 < (cfg4 0).chunkMax := by
  decide

/-- Both sides of the check: 10 bytes from 0x7D and from 0x7E with `S = 1` (V-B15, V-B14). -/
theorem witness_BurstCheckCoversEveryChunk :
    0 < 10 ∧ burstRejected (cfg4 1) 0x7D#8 10 = false ∧ burstRejected (cfg4 1) 0x7E#8 10 = true := by
  decide

/-- Closed; empty; 0x80 (V-B13); chunk 1 of 2 failed; both chunks done (V-B6b, `N = C + 1`). -/
theorem witness_WriteBurstOutcome :
    ((idle (cfg4 0) false []).busy = false ∧ (idle (cfg4 0) false []).isOpen = false) ∧
    ((opened []).busy = false ∧ (opened []).isOpen = true) ∧
    ((opened []).cfg.addrOverflow = .reject ∧
      0x7F < (0x80#8 : Byte).toNat + (chunkCount (opened []).cfg 4 - 1) * (opened []).cfg.stride) ∧
    ¬((opened []).cfg.addrOverflow = .reject ∧
      0x7F < (0x7F#8 : Byte).toNat + (chunkCount (opened []).cfg 5 - 1) * (opened []).cfg.stride) ∧
    (1 < chunkCount (cfg4 0) 5 ∧
      (∀ k < 1, (chunkAnswer (cfg4 0) (opened [.ok [], .fail]).env .write 5 k).isOk = true) ∧
      chunkAnswer (cfg4 0) (opened [.ok [], .fail]).env .write 5 1 = .fail) ∧
    (∀ k < chunkCount (cfg4 0) 5,
      (chunkAnswer (cfg4 0) (opened [.ok [], .ok []]).env .write 5 k).isOk = true) := by
  decide

/-- The same cases of a read. -/
theorem witness_ReadBurstOutcome :
    ((idle (cfg4 0) false []).busy = false ∧ (idle (cfg4 0) false []).isOpen = false) ∧
    ((opened []).busy = false ∧ (opened []).isOpen = true) ∧
    ((opened []).cfg.addrOverflow = .reject ∧
      0x7F < (0x80#8 : Byte).toNat + (chunkCount (opened []).cfg 4 - 1) * (opened []).cfg.stride) ∧
    ¬((opened []).cfg.addrOverflow = .reject ∧
      0x7F < (0x7F#8 : Byte).toNat + (chunkCount (opened []).cfg 5 - 1) * (opened []).cfg.stride) ∧
    (0 < chunkCount (cfg4 0) 5 ∧
      chunkAnswer (cfg4 0) (opened [.fail]).env .read 5 0 = .fail) ∧
    (∀ k < chunkCount (cfg4 0) 5,
      (chunkAnswer (cfg4 0) (opened [.ok [1#8, 2#8, 3#8, 4#8], .ok [5#8]]).env .read 5 k).isOk =
        true) := by
  decide

theorem witness_WriteBurstReconstructsBuffer :
    ∃ u, (opened [.ok [], .ok []]).busy = false ∧
      exec (.writeBurst 0#8 0#8 0x55#8 [1#8, 2#8, 3#8, 4#8, 5#8]) (opened [.ok [], .ok []]) =
        .next u ∧ u.lastStatus = .ok :=
  ⟨_, rfl, rfl, by decide⟩

theorem witness_BurstKeepsByteOrder :
    (∃ u, (opened [.ok [], .ok []]).busy = false ∧
      exec (.writeBurst 0#8 0#8 0x55#8 [1#8, 2#8, 3#8, 4#8, 5#8]) (opened [.ok [], .ok []]) =
        .next u ∧ u.lastStatus = .ok) ∧
    ∃ u, exec (.readBurst 0#8 0#8 0x55#8 5) (opened [.ok [1#8, 2#8, 3#8, 4#8], .ok [5#8]]) =
        .next u ∧ u.lastStatus = .ok :=
  ⟨⟨_, rfl, rfl, by decide⟩, _, rfl, by decide⟩

/-- Chunk 0 of a write failed, chunk 1 of a read failed. -/
theorem witness_PartialBurstFailureCounts :
    (∃ u, (opened [.fail]).busy = false ∧
      exec (.writeBurst 0#8 0#8 0x55#8 [1#8, 2#8, 3#8, 4#8, 5#8]) (opened [.fail]) = .next u ∧
        u.lastStatus = .partialBurstFailure) ∧
    ∃ u, exec (.readBurst 0#8 0#8 0x55#8 5) (opened [.ok [1#8, 2#8, 3#8, 4#8], .fail]) = .next u ∧
      u.lastStatus = .partialBurstFailure :=
  ⟨⟨_, rfl, rfl, by decide⟩, _, rfl, by decide⟩

theorem witness_OpenOutcome :
    ((opened []).busy = false ∧ (opened []).isOpen = true) ∧
    ((idle (cfg4 0) false [] [true]).isOpen = false ∧
      (idle (cfg4 0) false [] [true]).env.avail = true) ∧
    (idle (cfg4 0) false [] [false]).env.avail = false := by
  decide

theorem witness_CloseOutcome :
    ((opened []).busy = false ∧ (opened []).isOpen = true) ∧
    (idle (cfg4 0) false []).busy = false ∧ (idle (cfg4 0) false []).isOpen = false := by
  decide

theorem witness_ClosedBlockStaysOffTheBus :
    (idle (cfg4 0) false []).busy = false ∧ (idle (cfg4 0) false []).isOpen = false ∧
      Instr.isTransfer (.writeBurst 0#8 0#8 0xFF#8 []) = true ∧
      Instr.isTransfer (.readByte 0#8 0#8 0xFF#8) = true := by
  decide

theorem witness_RaiseEndsTheCommand :
    Status.partialBurstFailure ≠ .ok ∧ Status.busIoError ≠ .ok ∧ Status.notOpen ≠ .ok := by
  decide

theorem witness_EveryCommandGetsOneResponse :
    (opened []).busy = false ∧ Instr.isCommand .closeBus = true ∧
      ¬(Instr.closeBus = .closeBus ∧ (opened []).isOpen = false) := by
  decide

theorem witness_NoErrorIsSticky :
    ∃ u, (opened [.fail]).busy = false ∧ Instr.isCommand (.readByte 0#8 0#8 0x55#8) = true ∧
      exec (.readByte 0#8 0#8 0x55#8) (opened [.fail]) = .next u ∧ u.lastStatus = .busIoError :=
  ⟨_, rfl, rfl, rfl, by decide⟩

/-- A command with a failed transaction, and one with all transactions answered `Ok`. -/
theorem witness_FailureIsNeverHidden :
    (∃ u, (opened [.ok [], .fail]).busy = false ∧
      exec (.writeBurst 0#8 0#8 0x55#8 [1#8, 2#8, 3#8, 4#8, 5#8]) (opened [.ok [], .fail]) =
        .next u ∧ u.lastStatus = .partialBurstFailure) ∧
    ∃ u, exec (.writeByte 0#8 0#8 0x55#8 1#8) (opened [.ok []]) = .next u ∧ u.lastStatus = .ok :=
  ⟨⟨_, rfl, rfl, by decide⟩, _, rfl, by decide⟩

/-- An answer with too many bytes still brings as many as asked for. -/
theorem witness_TransactionIsOneEntryOfItsLength :
    (opened [.ok [1#8, 2#8, 3#8]]).env.answer 2 = .ok [1#8, 2#8] := by
  decide

theorem witness_StatusCodesAreDistinct : Status.notOpen.code = Status.notOpen.code := rfl

theorem witness_SingleTransferFrame :
    (∃ u, exec (.writeByte 0#8 0#8 0x7F#8 1#8) (opened [.ok []]) = .next u ∧ u.lastStatus = .ok) ∧
    (∃ u, exec (.readByte 0#8 0#8 0x7F#8) (opened [.ok [1#8]]) = .next u ∧ u.lastStatus = .ok) ∧
    ∃ u, exec (.readByte 0#8 0#8 0x80#8) (idle (cfg4 0) false []) = .next u ∧
      (idle (cfg4 0) false []).isOpen = false ∧ u.lastStatus = .notOpen :=
  ⟨⟨_, rfl, by decide⟩, ⟨_, rfl, by decide⟩, _, rfl, rfl, by decide⟩

theorem witness_BurstFrame :
    (∃ u, exec (.writeBurst 0#8 0#8 0x55#8 [1#8]) (opened [.ok []]) = .next u ∧
      u.lastStatus = .ok) ∧
    (∃ u, exec (.readBurst 0#8 0#8 0x55#8 1) (opened [.ok [1#8]]) = .next u ∧ u.lastStatus = .ok) ∧
    (∃ u, exec (.readBurst 0#8 0#8 0xFF#8 0) (opened []) = .next u) ∧
    (∃ u, exec (.readBurst 0#8 0#8 0x80#8 1) (opened []) = .next u ∧
      u.lastStatus = .invalidAddress ∧ (opened []).busy = false) ∧
    ∃ u, exec (.writeBurst 0#8 0#8 0x55#8 [1#8]) (idle (cfg4 0) false []) = .next u ∧
      (idle (cfg4 0) false []).isOpen = false ∧ u.lastStatus = .notOpen :=
  ⟨⟨_, rfl, by decide⟩, ⟨_, rfl, by decide⟩, ⟨_, rfl⟩, ⟨_, rfl, by decide, rfl⟩, _, rfl, rfl,
    by decide⟩

theorem witness_SessionFrame :
    (∃ u, exec .openBus (idle (cfg4 0) false [] [true]) = .next u ∧ u.lastStatus = .ok) ∧
    ∃ u, exec .closeBus (opened []) = .next u ∧ u.lastStatus = .ok :=
  ⟨⟨_, rfl, by decide⟩, _, rfl, by decide⟩

/-- An open block to which the host presents a `READ_BYTE` record. -/
def presenting (stepwise : Bool) : State :=
  { opened [.ok [0x3C#8]] with
    host := [.command ⟨0x03#8, 0#8, 0#8, 0x55#8, 0#8, 0, []⟩]
    stepwise := stepwise }

theorem witness_StepRunsPresentedOperation :
    (presenting false).busy = false ∧ (presenting false).stepwise = false ∧
      (presenting false).host = [.command ⟨0x03#8, 0#8, 0#8, 0x55#8, 0#8, 0, []⟩] ∧
      decode (presenting false).cfg.dirWrite (.command ⟨0x03#8, 0#8, 0#8, 0x55#8, 0#8, 0, []⟩) =
        .ok (.readByte 0#8 0#8 0x55#8) :=
  ⟨rfl, rfl, rfl, rfl⟩

/-- A request in the step-by-step reading; no request; the smallest reserved code. -/
theorem witness_IdleBlockAcceptsWaitsOrRefuses :
    ((presenting true).busy = false ∧ (presenting true).stepwise = true ∧
      (presenting true).host = [.command ⟨0x03#8, 0#8, 0#8, 0x55#8, 0#8, 0, []⟩] ∧
      decode (presenting true).cfg.dirWrite (.command ⟨0x03#8, 0#8, 0#8, 0x55#8, 0#8, 0, []⟩) =
        .ok (.readByte 0#8 0#8 0x55#8)) ∧
    ((opened []).busy = false ∧ (opened []).host = []) ∧
    6 ≤ (0x06#8 : Byte).toNat :=
  ⟨⟨rfl, rfl, rfl, rfl⟩, ⟨rfl, rfl⟩, by decide⟩

/-- A `WRITE_BURST` of 5 bytes in progress: chunk 0 sent and answered, chunk 1 next, and two more answers to come. -/
def midBurst : State :=
  { opened [.ok []] with
    phase := .issue
    k := 1
    nch := 2
    cmd := { op := .writeBurst, mux := 0#8, tgt := 0#8, addr := 0x55#8, val := 0#8, len := 5 }
    wbuf := [1#8, 2#8, 3#8, 4#8, 5#8]
    trace := [{ tx := [0#8, 0#8, 0xD5#8, 1#8, 2#8, 3#8, 4#8], rxLen := 0, answer := .ok [] }] }

/-- Chunk 0 of that burst is a legal entry, and so is chunk 1 when answered `Fail`. -/
theorem midBurst_trace_wf : ∀ e ∈ midBurst.trace ++
    [{ tx := [0#8, 0#8, 0xD5#8, 5#8], rxLen := 0, answer := .fail }], e.wf (cfg4 0) := by
  intro e he
  simp only [midBurst, List.cons_append, List.nil_append, List.mem_cons, List.not_mem_nil, or_false] at he
  rcases he with rfl | rfl
  · exact ⟨.inl ⟨0#8, 0#8, 0xD5#8, [1#8, 2#8, 3#8, 4#8], rfl, by decide, rfl, by decide, by decide⟩,
      fun rx h => by cases h; rfl⟩
  · exact ⟨.inl ⟨0#8, 0#8, 0xD5#8, [5#8], rfl, by decide, rfl, by decide, by decide⟩,
      fun rx h => by cases h⟩

/-- What the burst has moved: chunk 0, the first four bytes. -/
theorem midBurst_checked : BurstChecked midBurst midBurst.trace where
  is_open := rfl
  len_pos := by decide
  nch_eq := by decide
  k_le := by decide
  checked := by decide
  count := rfl
  answered := by decide
  moved := ⟨by decide, by decide⟩

/-- The state meets the invariant, so the hypotheses about a busy block can be met in mid-burst. -/
theorem midBurst_inv : Inv midBurst where
  trace_wf := fun e he => midBurst_trace_wf e (List.mem_append_left _ he)
  responses_wf := by intro r hr; cases hr
  status_eq := by intro r hr; cases hr
  count_only := fun _ => rfl
  phase_ok := ⟨rfl, by decide, [], midBurst.trace, rfl, midBurst_checked⟩

/-- The same burst with chunk 1 answered `Fail`: `PartialBurstFailure` is about to be completed. -/
def failedBurst : State :=
  { midBurst with
    phase := .completing (bare .partialBurstFailure 1)
    trace := midBurst.trace ++ [{ tx := [0#8, 0#8, 0xD5#8, 5#8], rxLen := 0, answer := .fail }] }

/-- It meets the invariant, so a failing completion is among the states of the statement StepKeepsInv. -/
theorem failedBurst_inv : Inv failedBurst where
  trace_wf := midBurst_trace_wf
  responses_wf := by intro r hr; cases hr
  status_eq := by intro r hr; cases hr
  count_only := fun _ => rfl
  phase_ok := ⟨⟨fun _ => rfl, fun h => absurd rfl h⟩,
    ⟨by decide, [], midBurst.trace, _, rfl, rfl,
      { midBurst_checked with }⟩, rfl⟩

theorem witness_BusyBlockAcceptsNothing :
    midBurst.busy = true ∧ Instr.isCommand .openBus = true := by decide

/-- In mid-burst, and where a failed burst completes. -/
theorem witness_StepKeepsInv : (∃ u, Inv midBurst ∧ step midBurst = .next u) ∧
    ∃ u, Inv failedBurst ∧ step failedBurst = .next u :=
  ⟨⟨_, midBurst_inv, rfl⟩, _, failedBurst_inv, rfl⟩

theorem witness_StepOnlyAppends : ∃ u, step midBurst = .next u := ⟨_, rfl⟩

/-- A step that opens and a step that closes. -/
theorem witness_OnlySessionOperationsMoveOpen :
    (∃ u, step { idle (cfg4 0) false [] [true] with host := [encode true .openBus] } = .next u ∧
      u.isOpen ≠ false) ∧
    ∃ u, step { opened [] with host := [encode true .closeBus] } = .next u ∧ u.isOpen ≠ true :=
  ⟨⟨_, rfl, by decide⟩, _, rfl, by decide⟩

theorem witness_StepByStepAgreesWithWhole :
    (presenting true).busy = false ∧ (presenting true).stepwise = true ∧
      (presenting true).host = [.command ⟨0x03#8, 0#8, 0#8, 0x55#8, 0#8, 0, []⟩] ∧
      decode (presenting true).cfg.dirWrite (.command ⟨0x03#8, 0#8, 0#8, 0x55#8, 0#8, 0, []⟩) =
        .ok (.readByte 0#8 0#8 0x55#8) :=
  ⟨rfl, rfl, rfl, rfl⟩

theorem witness_CommandInProgressCompletes : Inv midBurst ∧ midBurst.busy = true :=
  ⟨midBurst_inv, rfl⟩

/-- Two idle states that differ in every element the outside does not see. -/
theorem witness_HiddenStateIsUnobservable :
    let s := opened [.ok [1#8, 2#8, 3#8, 4#8], .fail]
    let s' := { s with
      k := 7, nch := 9, rdata := 0xFF#8, rbuf := [1#8], wbuf := [2#8], lastStatus := .notOpen
      cmd := { op := .closeBus, mux := 1#8, tgt := 2#8, addr := 3#8, val := 4#8, len := 5 }
      hdr := .invalidAddress }
    s.busy = false ∧ s'.busy = false ∧ s.cfg = s'.cfg ∧ s.isOpen = s'.isOpen ∧ s.env = s'.env ∧
      Instr.isCommand (.readBurst 0#8 0#8 0x55#8 5) = true ∧
      ¬(Instr.readBurst 0#8 0#8 0x55#8 5 = .closeBus ∧ s.isOpen = false) := by
  decide

end Sys2Proof.Tests
end

section
/-! The byte order of a burst (20_memory.md R63): what a burst that answered `Ok` left behind, which bytes each of its
chunks carried, and the statement `BurstKeepsByteOrder`. -/

namespace Sys2Proof.Machine

/-! ## A burst that answered `Ok` (42_burst.md R144, R145) -/

section SucceededBurst

variable {d : Direction} {m t a : Byte} {buf : List Byte} {n : Nat} {s : State}

@[simp] theorem afterChunks_wbuf (j : Nat) : (afterChunks d m t a buf n s j).wbuf = s.wbuf := by
  cases j <;> rfl

@[simp] theorem afterChunks_responses (j : Nat) :
    (afterChunks d m t a buf n s j).responses = s.responses := by
  cases j <;> rfl

/-- Only an open block whose burst passed the address check and had every chunk answered `Ok` reports `Ok`; a burst of
length 0 makes no check and has no chunks. -/
theorem runBurst_lastStatus_ok (h : (runBurst d m t a buf n s).lastStatus = .ok) :
    s.isOpen = true ∧ (0 < n → burstRejected s.cfg a n = false) ∧
      chunksAnswered s.cfg s.env d n (chunkCount s.cfg n) := by
  cases ho : s.isOpen with
  | false => simp [runBurst_closed ho] at h
  | true =>
    obtain rfl | hn := Nat.eq_zero_or_pos n
    · exact ⟨rfl, fun h0 => absurd h0 (Nat.lt_irrefl 0), by simp [chunksAnswered]⟩
    · cases hc : burstRejected s.cfg a n with
      | true => simp [runBurst_rejected ho hn hc] at h
      | false =>
        obtain hall | ⟨j, hj, hbefore, hfail⟩ :=
          chunksAnswered_or_fail s.cfg s.env d n (chunkCount s.cfg n)
        · exact ⟨rfl, fun _ => rfl, hall⟩
        · simp [runBurst_fail ho hc hj hbefore hfail] at h

/-- The trace has grown by the entries of all chunks, in order. -/
theorem runBurst_ok_trace (h : (runBurst d m t a buf n s).lastStatus = .ok) :
    (runBurst d m t a buf n s).trace =
      s.trace ++ chunkEntries s.cfg s.env d m t a buf n (chunkCount s.cfg n) := by
  obtain ⟨ho, hc, hall⟩ := runBurst_lastStatus_ok h
  obtain rfl | hn := Nat.eq_zero_or_pos n
  · simp [runBurst_empty ho]
  · simp [runBurst_ok ho hn (hc hn) hall]

theorem runBurst_ok_wbuf (h : (runBurst d m t a buf n s).lastStatus = .ok) :
    (runBurst d m t a buf n s).wbuf = s.wbuf := by
  obtain ⟨ho, hc, hall⟩ := runBurst_lastStatus_ok h
  obtain rfl | hn := Nat.eq_zero_or_pos n
  · simp [runBurst_empty ho]
  · simp [runBurst_ok ho hn (hc hn) hall]

/-- A read delivers the bytes received, in order. -/
theorem runBurst_read_ok_responses (h : (runBurst .read m t a buf n s).lastStatus = .ok) :
    (runBurst .read m t a buf n s).responses = s.responses ++
      [{ status := .ok, chunksOk := 0,
         data := .buffer (chunksReceived s.cfg s.env .read n (chunkCount s.cfg n)) }] := by
  obtain ⟨ho, hc, hall⟩ := runBurst_lastStatus_ok h
  obtain rfl | hn := Nat.eq_zero_or_pos n
  · simp [runBurst_empty ho, burstData]
  · simp [runBurst_ok ho hn (hc hn) hall]

end SucceededBurst

/-! ## The bytes of one chunk and of the chunks together -/

theorem chunkEntries_getElem {cfg : Params} {e : Env} {d : Direction} {m t a : Byte}
    {buf : List Byte} {n j k : Nat} (hk : k < (chunkEntries cfg e d m t a buf n j).length) :
    (chunkEntries cfg e d m t a buf n j)[k] = chunkEntry cfg e d m t a buf n k := by
  simp [chunkEntries]

/-- Dropping a valid header leaves the data the frame sends. -/
theorem chunkEntry_data {cfg : Params} {m t a : Byte} {d : Direction} {k : Nat}
    (hv : encodeHeader cfg m t (chunkAddr cfg a k) d ≠ .invalidAddress)
    (e : Env) (buf : List Byte) (n : Nat) :
    (chunkEntry cfg e d m t a buf n k).data =
      frameData d (slice buf (chunkOff cfg k) (chunkLen cfg n k)) := by
  simp [TraceEntry.data, chunkEntry, HeaderOut.bytes_length hv]

/-- The length of the last chunk, cut at the end of the buffer, is the cut `take` makes. -/
theorem slice_chunk (cfg : Params) (buf : List Byte) (k : Nat) :
    slice buf (chunkOff cfg k) (chunkLen cfg buf.length k) =
      (buf.drop (k * cfg.chunkMax)).take cfg.chunkMax := by
  simp [slice, chunkLen, chunkOff, List.take_eq_take_iff]

/-- The data of a write's first `j` chunks, in order, are the buffer's beginning. -/
theorem chunkEntries_flatMap_data {cfg : Params} {m t a : Byte} {buf : List Byte} {j : Nat}
    (hv : ∀ k < chunkCount cfg buf.length,
      encodeHeader cfg m t (chunkAddr cfg a k) .write ≠ .invalidAddress)
    (hj : j ≤ chunkCount cfg buf.length) (e : Env) :
    (chunkEntries cfg e .write m t a buf buf.length j).flatMap TraceEntry.data =
      buf.take (chunkOff cfg j) := by
  rw [← flatMap_slices cfg buf j hj, chunkEntries, List.flatMap_map]
  refine List.flatMap_congr fun k hk => ?_
  exact chunkEntry_data (hv k (by have := List.mem_range.1 hk; omega)) e buf buf.length

theorem chunkEntries_flatMap_received (cfg : Params) (e : Env) (d : Direction) (m t a : Byte)
    (buf : List Byte) (n j : Nat) :
    (chunkEntries cfg e d m t a buf n j).flatMap (fun x => x.answer.received) =
      chunksReceived cfg e d n j := by
  simp [chunkEntries, chunksReceived, List.flatMap_map, chunkEntry]

theorem chunksReceived_prefix (cfg : Params) (e : Env) (d : Direction) (n : Nat) {i j : Nat}
    (hij : i ≤ j) : chunksReceived cfg e d n i <+: chunksReceived cfg e d n j := by
  induction j, hij using Nat.le_induction with
  | base => exact List.prefix_rfl
  | succ j _ ih => exact ih.trans (chunksReceived_succ cfg e d n j ▸ List.prefix_append _ _)

/-- What the first `i` chunks of a read brought is what stands below offset `i * C`. -/
theorem chunksReceived_take {cfg : Params} {e : Env} {n i j : Nat} (hij : i ≤ j)
    (hj : j ≤ chunkCount cfg n) (h : chunksAnswered cfg e .read n j) :
    (chunksReceived cfg e .read n j).take (chunkOff cfg i) = chunksReceived cfg e .read n i := by
  have hi := chunksReceived_length (hij.trans hj) fun k hk => h k (hk.trans_le hij)
  rw [List.prefix_iff_eq_take.1 (chunksReceived_prefix cfg e .read n hij), hi,
    List.take_eq_take_iff, chunksReceived_length hj h]
  omega

/-- Chunk `k` of a read brought the `C` bytes from offset `k * C` on, as far as there are any. -/
theorem chunkAnswer_received {cfg : Params} {e : Env} {n j k : Nat} (hk : k < j)
    (hj : j ≤ chunkCount cfg n) (h : chunksAnswered cfg e .read n j) :
    (chunkAnswer cfg e .read n k).received =
      ((chunksReceived cfg e .read n j).drop (k * cfg.chunkMax)).take cfg.chunkMax := by
  have hoff : (chunksReceived cfg e .read n k).length = chunkOff cfg k := by
    rw [chunksReceived_length (hk.le.trans hj) fun i hi => h i (hi.trans hk)]
    exact Nat.min_eq_left (lt_chunkCount_iff.1 (hk.trans_le hj)).le
  calc (chunkAnswer cfg e .read n k).received
    _ = (chunksReceived cfg e .read n (k + 1)).drop (chunkOff cfg k) := by
      rw [chunksReceived_succ, List.drop_left' hoff]
    _ = ((chunksReceived cfg e .read n j).take (chunkOff cfg k + cfg.chunkMax)).drop
          (chunkOff cfg k) := by
      rw [← chunksReceived_take hk hj h, chunkOff_succ]
    _ = ((chunksReceived cfg e .read n j).drop (k * cfg.chunkMax)).take cfg.chunkMax := by
      rw [List.drop_take, Nat.add_sub_cancel_left, chunkOff]

/-! ## The statement -/

/-- A successful `WRITE_BURST` sent its buffer, chunk by chunk. -/
theorem writeBurst_keepsOrder {s u : State} {m t a : Byte} {buf : List Byte}
    (hb : s.busy = false) (hx : exec (.writeBurst m t a buf) s = .next u)
    (hok : u.lastStatus = .ok) :
    ∃ es, u.trace = s.trace ++ es ∧ es.flatMap TraceEntry.data = u.wbuf ∧ u.wbuf = buf ∧
      ∀ (k : Nat) (hk : k < es.length),
        es[k].data = (u.wbuf.drop (k * s.cfg.chunkMax)).take s.cfg.chunkMax := by
  rw [exec_writeBurst hb] at hx
  cases hx
  have htrace := runBurst_ok_trace hok
  have hwbuf := runBurst_ok_wbuf hok
  obtain ⟨-, hchecked, -⟩ := runBurst_lastStatus_ok hok
  simp only [State.latch_cfg, State.latch_env, State.latch_trace, State.latch_writeBurst_wbuf]
    at htrace hwbuf hchecked
  have hv (k) (hk : k < chunkCount s.cfg buf.length) :
      encodeHeader s.cfg m t (chunkAddr s.cfg a k) .write ≠ .invalidAddress :=
    chunk_header_valid (hchecked (Nat.zero_lt_of_lt (lt_chunkCount_iff.1 hk))) hk m t .write
  refine ⟨_, htrace, ?_, hwbuf, fun k hk => ?_⟩
  · rw [chunkEntries_flatMap_data hv le_rfl, hwbuf,
      List.take_of_length_le (le_chunkOff_chunkCount s.cfg buf.length)]
  · rw [chunkEntries_length] at hk
    rw [chunkEntries_getElem, chunkEntry_data (hv k hk), frameData, slice_chunk, hwbuf]

/-- A successful `READ_BURST` delivered what it received, chunk by chunk. -/
theorem readBurst_keepsOrder {s u : State} {m t a : Byte} {n : Nat}
    (hb : s.busy = false) (hx : exec (.readBurst m t a n) s = .next u)
    (hok : u.lastStatus = .ok) :
    ∃ es bytes, u.trace = s.trace ++ es ∧
      es.flatMap (fun e => e.answer.received) = bytes ∧ bytes.length = n ∧
      u.responses = s.responses ++ [{ status := .ok, data := .buffer bytes, chunksOk := 0 }] ∧
      ∀ (k : Nat) (hk : k < es.length),
        es[k].answer.received = (bytes.drop (k * s.cfg.chunkMax)).take s.cfg.chunkMax := by
  rw [exec_readBurst hb] at hx
  cases hx
  have htrace := runBurst_ok_trace hok
  have hresp := runBurst_read_ok_responses hok
  obtain ⟨-, -, hall⟩ := runBurst_lastStatus_ok hok
  simp only [State.latch_cfg, State.latch_env, State.latch_trace, State.latch_responses]
    at htrace hresp hall
  refine ⟨_, _, htrace, chunkEntries_flatMap_received .., ?_, hresp, fun k hk => ?_⟩
  · rw [chunksReceived_length le_rfl hall, Nat.min_eq_right (le_chunkOff_chunkCount s.cfg n)]
  · rw [chunkEntries_length] at hk
    rw [chunkEntries_getElem]
    exact chunkAnswer_received hk le_rfl hall

/-- Settles O19: an `Ok` burst has issued all of its chunks, and chunk `k` moves the bytes from offset `k * C`. -/
theorem burstKeepsByteOrder : Obligations.BurstKeepsByteOrder := by
  unfold Obligations.BurstKeepsByteOrder
  exact ⟨fun _ _ _ _ _ _ => writeBurst_keepsOrder, fun _ _ _ _ _ _ => readBurst_keepsOrder⟩

end Sys2Proof.Machine
end

section
/-! The header encoder is pure (40_header_encoder.md R111): its header depends on the call and on `DIR_WRITE` and
`ADDR_OVERFLOW` alone, and the statement `EncodeHeaderIsPure`. -/

namespace Sys2Proof.Machine

/-- Of the configuration the encoder reads `DIR_WRITE` and `ADDR_OVERFLOW` alone. -/
theorem encodeHeader_congr {cfg cfg' : Params} (hdir : cfg.dirWrite = cfg'.dirWrite)
    (hover : cfg.addrOverflow = cfg'.addrOverflow) (m t : Byte) (a : Nat) (d : Direction) :
    encodeHeader cfg m t a d = encodeHeader cfg' m t a d := by
  simp only [encodeHeader, hdir, hover]

/-- An operation that is no command evaluates the encoder, from every state on the same operands. -/
theorem exec_eq_evalHeader {i : Instr} (h : i.isCommand = false) :
    ∃ m t a d, ∀ s, exec i s = .next (s.evalHeader m t a d) := by
  cases i with
  | encodeHeaderW m t a => exact ⟨m, t, a, .write, fun _ => rfl⟩
  | encodeHeaderR m t a => exact ⟨m, t, a, .read, fun _ => rfl⟩
  | _ => cases h

/-- Settles O7: both states evaluate the encoder on the call's operands, which writes `HDR` alone, and on equal
parameters the encoder gives equal headers. -/
theorem encodeHeaderIsPure : Obligations.EncodeHeaderIsPure := by
  unfold Obligations.EncodeHeaderIsPure
  intro i s s' u u' hcall hdir hover hu hu'
  obtain ⟨m, t, a, d, heval⟩ := exec_eq_evalHeader hcall
  rw [heval] at hu hu'
  cases hu
  cases hu'
  exact ⟨encodeHeader_congr hdir hover m t a d, rfl, rfl⟩

end Sys2Proof.Machine
end

section
/-! The single-byte transfers (41_single_transfer.md R121 to R125): what completing a command leaves in the state, the
statements `WriteByteOutcome` and `ReadByteOutcome` by the cases of the two commands, and from their clauses
`SingleTransferIsOneTransaction` and `FailedSingleTransferIsNotRetried`. -/

namespace Sys2Proof.Machine

/-! ## Completion (60_exceptions.md R190) -/

section Completion

variable {s w u : State} {es : List TraceEntry}

/-- A command that has only added the entries `es` since it began in `s` completes by giving its response. -/
theorem State.finish_completed (htrace : w.trace = s.trace ++ es)
    (hresp : w.responses = s.responses) (r : Response) : Completed s (w.finish r) es r where
  traced := by rw [State.finish_trace, htrace]
  responded := by rw [State.finish_responses, hresp]
  status := State.finish_lastStatus w r
  count := State.finish_chunksOk w r
  ready := State.busy_idle (State.finish_phase w r)

theorem State.raise_completed (htrace : w.trace = s.trace ++ es)
    (hresp : w.responses = s.responses) (st : Status) (k : Nat) :
    Completed s (w.raise st k) es (errorResponse st k) :=
  State.finish_completed htrace hresp _

theorem State.respond_completed (htrace : w.trace = s.trace ++ es)
    (hresp : w.responses = s.responses) (data : RespData) :
    Completed s (w.respond data) es { status := .ok, data := data, chunksOk := 0 } :=
  State.finish_completed htrace hresp _

/-- A transfer that does not pass the checks of 41_single_transfer.md R120 is closed or rejected, and adds no entry. -/
theorem trace_eq_of_checks_failed {a : Byte} {r r' : Response}
    (hclosed : s.isOpen = false → Completed s u [] r)
    (hrejected : s.isOpen = true → 0x7F < a.toNat ∧ s.cfg.addrOverflow = .reject →
      Completed s u [] r')
    (h : ¬(s.isOpen = true ∧ ¬(0x7F < a.toNat ∧ s.cfg.addrOverflow = .reject))) :
    u.trace = s.trace := by
  cases ho : s.isOpen with
  | false => simpa using (hclosed ho).traced
  | true =>
    have ha := not_not.1 fun hvalid => h ⟨ho, hvalid⟩
    simpa using (hrejected ho ha).traced

end Completion

/-! ## The outcomes of the two commands (R121, R122) -/

/-- Settles O9: the block is closed, or it rejects the address, or the environment answers `Fail` or `Ok`; each case is
one whole next state, completed by `raise` or `respond`. -/
theorem writeByteOutcome : Obligations.WriteByteOutcome := by
  unfold Obligations.WriteByteOutcome
  refine ⟨rfl, fun s m t a v hb => ?_⟩
  cases ho : s.isOpen with
  | false =>
    refine ⟨_, exec_writeByte_closed hb ho, by simp [ho], by simp, fun _ => ?_,
      by simp, by simp, by simp⟩
    exact State.raise_completed (by simp) (by simp) .notOpen 0
  | true =>
    by_cases ha : 0x7F < a.toNat ∧ s.cfg.addrOverflow = .reject
    · refine ⟨_, exec_writeByte_rejected hb ho ha, by simp [ho], by simp, by simp, fun _ _ => ?_,
        fun _ h => absurd ha h, fun _ h => absurd ha h⟩
      exact State.raise_completed (by simp) (by simp) .invalidAddress 0
    · obtain hf | hk := Env.answer_zero s.env
      · refine ⟨_, exec_writeByte_failed hb ho ha hf, by simp [ho], by simp, by simp,
          fun _ h => absurd h ha, fun _ _ _ => ?_, by simp [hf]⟩
        exact State.raise_completed (by simp [hf]) (by simp) .busIoError 0
      · refine ⟨_, exec_writeByte_ok hb ho ha hk, by simp [ho], by simp, by simp,
          fun _ h => absurd h ha, by simp [hk], fun _ _ _ => ?_⟩
        exact State.respond_completed (by simp [hk]) (by simp) .absent

/-- Settles O10: the same four cases; the byte an `Ok` answer brings is stored in `RDATA` before the response. -/
theorem readByteOutcome : Obligations.ReadByteOutcome := by
  unfold Obligations.ReadByteOutcome
  refine ⟨rfl, fun s m t a hb => ?_⟩
  cases ho : s.isOpen with
  | false =>
    refine ⟨_, exec_readByte_closed hb ho, by simp [ho], by simp, fun _ => ?_,
      by simp, by simp, by simp⟩
    exact State.raise_completed (by simp) (by simp) .notOpen 0
  | true =>
    by_cases ha : 0x7F < a.toNat ∧ s.cfg.addrOverflow = .reject
    · refine ⟨_, exec_readByte_rejected hb ho ha, by simp [ho], by simp, by simp, fun _ _ => ?_,
        fun _ h => absurd ha h, fun _ h => absurd ha h⟩
      exact State.raise_completed (by simp) (by simp) .invalidAddress 0
    · obtain hf | ⟨b, hk⟩ := Env.answer_one s.env
      · refine ⟨_, exec_readByte_failed hb ho ha hf, by simp [ho], by simp, by simp,
          fun _ h => absurd h ha, fun _ _ _ => ?_, by simp [hf]⟩
        exact State.raise_completed (by simp [hf]) (by simp) .busIoError 0
      · refine ⟨_, exec_readByte_ok hb ho ha hk, by simp [ho], by simp, by simp,
          fun _ h => absurd h ha, by simp [hk], fun _ _ b' hb' => ?_⟩
        obtain rfl : b = b' := by simpa [hk] using hb'
        exact ⟨by simp, State.respond_completed (by simp [hk]) (by simp) (.byte b)⟩

/-! ## How many transactions (R123, R125) -/

/-- Settles O11: of the four outcomes of each command, the two that pass the checks add one entry and the two that fail
them add none. -/
theorem singleTransferIsOneTransaction : Obligations.SingleTransferIsOneTransaction := by
  unfold Obligations.SingleTransferIsOneTransaction
  rintro s m t a v i hb (rfl | rfl)
  · obtain ⟨u, hx, -, -, hclosed, hrejected, hfail, hok⟩ := writeByteOutcome.2 s m t a v hb
    refine ⟨fun ⟨ho, ha⟩ => ?_, fun h => ⟨u, hx, trace_eq_of_checks_failed hclosed hrejected h⟩⟩
    obtain hf | hk := Env.answer_zero s.env
    · exact ⟨u, _, hx, (hfail ho ha hf).traced⟩
    · exact ⟨u, _, hx, (hok ho ha hk).traced⟩
  · obtain ⟨u, hx, -, -, hclosed, hrejected, hfail, hok⟩ := readByteOutcome.2 s m t a hb
    refine ⟨fun ⟨ho, ha⟩ => ?_, fun h => ⟨u, hx, trace_eq_of_checks_failed hclosed hrejected h⟩⟩
    obtain hf | ⟨b, hk⟩ := Env.answer_one s.env
    · exact ⟨u, _, hx, (hfail ho ha hf).traced⟩
    · exact ⟨u, _, hx, (hok ho ha b hk).2.traced⟩

/-- Settles O12: the `Fail` outcome of either command completes with that one entry, so nothing was issued again. -/
theorem failedSingleTransferIsNotRetried : Obligations.FailedSingleTransferIsNotRetried := by
  unfold Obligations.FailedSingleTransferIsNotRetried
  rintro s m t a v i n hb ho ha (⟨rfl, rfl⟩ | ⟨rfl, rfl⟩) hf
  · obtain ⟨u, hx, -, -, -, -, hfail, -⟩ := writeByteOutcome.2 s m t a v hb
    have hc := hfail ho ha hf
    exact ⟨u, _, hx, hc.traced, rfl, hc.responded, hc.ready⟩
  · obtain ⟨u, hx, -, -, -, -, hfail, -⟩ := readByteOutcome.2 s m t a hb
    have hc := hfail ho ha hf
    exact ⟨u, _, hx, hc.traced, rfl, hc.responded, hc.ready⟩

end Sys2Proof.Machine
end

section
/-! The chunk arithmetic of a burst (42_burst.md R141): which chunk holds a byte index, what the chunks' lengths add up to,
the two kinds of length with a simple answer, and the statement `ChunkArithmetic`. -/

namespace Sys2Proof.Machine

variable {cfg : Params} {n : Nat}

/-- The chunks stay inside the length. -/
theorem chunkOff_add_len_le {k : Nat} (hk : k < chunkCount cfg n) :
    chunkOff cfg k + chunkLen cfg n k ≤ n := by
  rw [chunkOff_add_len hk]
  exact Nat.min_le_right _ _

/-- The chunk of a byte index is the index divided by `C`. -/
theorem mem_chunk_iff {i k : Nat} (hi : i < n) :
    (chunkOff cfg k ≤ i ∧ i < chunkOff cfg k + chunkLen cfg n k) ↔ k = i / cfg.chunkMax := by
  have hC := cfg.chunkMax_pos
  rw [eq_comm, Nat.div_eq_iff hC, chunkLen, chunkOff, Nat.mul_comm k]
  omega

/-- Every byte index lies in exactly one chunk. -/
theorem existsUnique_chunk {i : Nat} (hi : i < n) :
    ∃! k, k < chunkCount cfg n ∧ chunkOff cfg k ≤ i ∧ i < chunkOff cfg k + chunkLen cfg n k := by
  have hmem := (mem_chunk_iff (cfg := cfg) hi).2 rfl
  exact ⟨i / cfg.chunkMax, ⟨lt_chunkCount_iff.2 (hmem.1.trans_lt hi), hmem⟩,
    fun k hk => (mem_chunk_iff hi).1 hk.2⟩

/-- The lengths of the first `j` chunks sum to the offset of the next, capped at the length. -/
theorem sum_chunkLen {j : Nat} (hj : j ≤ chunkCount cfg n) :
    ((List.range j).map (chunkLen cfg n)).sum = min (chunkOff cfg j) n := by
  induction j with
  | zero => simp [chunkOff]
  | succ j ih =>
    have hoff := lt_chunkCount_iff.1 hj
    rw [List.range_succ, List.map_append, List.sum_append, ih (by omega),
      Nat.min_eq_left hoff.le, ← chunkOff_add_len hj]
    simp

/-- A length that is `q` times `C` has `q` chunks. -/
theorem chunkCount_mul (cfg : Params) (q : Nat) : chunkCount cfg (cfg.chunkMax * q) = q := by
  refine eq_of_forall_lt_iff fun k => ?_
  rw [lt_chunkCount_iff, chunkOff, Nat.mul_comm k, Nat.mul_lt_mul_left cfg.chunkMax_pos]

/-- All chunks of such a length are full. -/
theorem chunkLen_mul {q k : Nat} (hk : k < q) :
    chunkLen cfg (cfg.chunkMax * q) k = cfg.chunkMax := by
  have hfull : cfg.chunkMax * (k + 1) ≤ cfg.chunkMax * q := Nat.mul_le_mul_left _ hk
  rw [Nat.mul_succ] at hfull
  rw [chunkLen, chunkOff, Nat.mul_comm k]
  omega

/-- A length from 1 to `C` is one chunk. -/
theorem chunkCount_eq_one (hn : 0 < n) (hle : n ≤ cfg.chunkMax) : chunkCount cfg n = 1 := by
  have hpos := chunkCount_pos (cfg := cfg) hn
  have hone : ¬1 < chunkCount cfg n := by
    rw [lt_chunkCount_iff, chunkOff]
    omega
  omega

/-- Settles O14: the consequences follow from the offsets, `off(k) + L(k) = min(off(k + 1), N)` below `NCH`. -/
theorem chunkArithmetic : Obligations.ChunkArithmetic := by
  unfold Obligations.ChunkArithmetic
  intro cfg n
  refine ⟨rfl, fun k => ⟨rfl, rfl⟩, chunkCount_zero cfg, fun k => chunkLen_full, fun hn => ⟨?_, ?_⟩,
    ?_, fun i => existsUnique_chunk, fun k => chunkOff_add_len_le, ?_, fun hn hlt => ⟨?_, ?_⟩⟩
  · exact chunkLen_pos (Nat.sub_lt (chunkCount_pos hn) Nat.one_pos)
  · exact chunkLen_le cfg n _
  · rw [sum_chunkLen le_rfl, Nat.min_eq_right (le_chunkOff_chunkCount cfg n)]
  · rintro ⟨q, rfl⟩
    rw [chunkCount_mul, Nat.mul_div_cancel_left q cfg.chunkMax_pos]
    exact ⟨rfl, fun k => chunkLen_mul⟩
  · exact chunkCount_eq_one hn hlt.le
  · rw [chunkLen, chunkOff]
    omega

end Sys2Proof.Machine
end

section
/-! The outcomes of the two bursts (42_burst.md R144, R145). Both run `runBurst` on the block with the operands latched, so
what it leaves alone and how it completes in each of the five cases are said once, for either direction; the statements
`WriteBurstOutcome` and `ReadBurstOutcome` are assembled from them. -/

namespace Sys2Proof.Machine

section Outcomes

variable {d : Direction} {m t a : Byte} {buf : List Byte} {n : Nat} {s : State}

/-! ## The check before the first chunk (42_burst.md R143) -/

theorem burstRejected_iff {cfg : Params} : burstRejected cfg a n = true ↔
    cfg.addrOverflow = .reject ∧ 0x7F < a.toNat + (chunkCount cfg n - 1) * cfg.stride :=
  decide_eq_true_iff

theorem burstRejected_eq_false_iff {cfg : Params} : burstRejected cfg a n = false ↔
    ¬(cfg.addrOverflow = .reject ∧
      0x7F < a.toNat + (chunkCount cfg n - 1) * cfg.stride) :=
  decide_eq_false_iff_not

/-! ## What a burst leaves alone: `OPEN`, the latches and `WBUF` -/

theorem burstChunks_frame (left : Nat) (s : State) :
    (burstChunks d m t a buf n left s).isOpen = s.isOpen ∧
      (burstChunks d m t a buf n left s).cmd = s.cmd ∧
      (burstChunks d m t a buf n left s).wbuf = s.wbuf := by
  induction left generalizing s with
  | zero => simp [burstChunks]
  | succ left ih =>
    simp only [burstChunks]
    split
    · simp
    · split
      · simp
      · simp [ih]

theorem runBurst_frame (d : Direction) (m t a : Byte) (buf : List Byte) (n : Nat) (s : State) :
    (runBurst d m t a buf n s).isOpen = s.isOpen ∧ (runBurst d m t a buf n s).cmd = s.cmd ∧
      (runBurst d m t a buf n s).wbuf = s.wbuf := by
  simp only [runBurst]
  split
  · split
    · simp
    · split
      · simp
      · simp [burstChunks_frame]
  · simp

/-! ## What the chunks leave in `K`, `NCH` and `RBUF` -/

@[simp] theorem afterChunks_nch (j : Nat) : (afterChunks d m t a buf n s j).nch = s.nch := by
  cases j <;> rfl

@[simp] theorem afterChunks_setK_k (j : Nat) :
    (afterChunks d m t a buf n (s.setK 0) j).k = j :=
  afterChunks_k rfl j

theorem afterChunks_rbuf (hn : 0 < n) :
    (afterChunks .read m t a buf n s (chunkCount s.cfg n)).rbuf =
      chunksReceived s.cfg s.env .read n (chunkCount s.cfg n) := by
  obtain ⟨j, hj⟩ := Nat.exists_eq_succ_of_ne_zero (chunkCount_pos (cfg := s.cfg) hn).ne'
  rw [hj]
  rfl

theorem chunksReceived_all_length {cfg : Params} {e : Env}
    (hall : chunksAnswered cfg e .read n (chunkCount cfg n)) :
    (chunksReceived cfg e .read n (chunkCount cfg n)).length = n := by
  rw [chunksReceived_length le_rfl hall, Nat.min_eq_right (le_chunkOff_chunkCount cfg n)]

/-! ## How a burst completes -/

/-- Latching operands issues no transaction and gives no response. -/
theorem Completed.of_latch {u : State} {es : List TraceEntry} {r : Response} {i : Instr}
    (h : Completed (s.latch i) u es r) : Completed s u es r where
  traced := by simpa using h.traced
  responded := by simpa using h.responded
  status := h.status
  count := h.count
  ready := h.ready

theorem runBurst_closed_completed (ho : s.isOpen = false) :
    Completed s (runBurst d m t a buf n s) [] (errorResponse .notOpen 0) := by
  rw [runBurst_closed ho]
  exact State.raise_completed (by simp) rfl .notOpen 0

theorem runBurst_empty_completed (ho : s.isOpen = true) :
    Completed s (runBurst d m t a buf 0 s) []
      { status := .ok, data := burstData d 0 s, chunksOk := 0 } := by
  rw [runBurst_empty ho]
  exact State.respond_completed (by simp) rfl _

theorem runBurst_rejected_completed (ho : s.isOpen = true) (hn : 0 < n)
    (hc : burstRejected s.cfg a n = true) :
    Completed s (runBurst d m t a buf n s) [] (errorResponse .invalidAddress 0) := by
  rw [runBurst_rejected ho hn hc]
  exact State.raise_completed (by simp) (by simp) .invalidAddress 0

theorem runBurst_fail_completed {j : Nat} (ho : s.isOpen = true)
    (hc : burstRejected s.cfg a n = false) (hj : j < chunkCount s.cfg n)
    (hbefore : chunksAnswered s.cfg s.env d n j) (hfail : chunkAnswer s.cfg s.env d n j = .fail) :
    (runBurst d m t a buf n s).nch = chunkCount s.cfg n ∧ (runBurst d m t a buf n s).k = j ∧
      Completed s (runBurst d m t a buf n s) (chunkEntries s.cfg s.env d m t a buf n (j + 1))
        (errorResponse .partialBurstFailure j) := by
  rw [runBurst_fail ho hc hj hbefore hfail]
  exact ⟨by simp, by simp, State.raise_completed rfl (by simp) _ j⟩

theorem runBurst_read_ok_rbuf (ho : s.isOpen = true) (hn : 0 < n)
    (hc : burstRejected s.cfg a n = false)
    (hall : chunksAnswered s.cfg s.env .read n (chunkCount s.cfg n)) :
    (runBurst .read m t a buf n s).rbuf =
      chunksReceived s.cfg s.env .read n (chunkCount s.cfg n) := by
  rw [runBurst_ok ho hn hc hall, State.respond_rbuf]
  exact afterChunks_rbuf (s := (s.setNch (chunkCount s.cfg n)).setK 0) hn

/-- A read delivers the first `N` bytes that its chunks have left in `RBUF`. -/
theorem runBurst_ok_completed (ho : s.isOpen = true) (hn : 0 < n)
    (hc : burstRejected s.cfg a n = false)
    (hall : chunksAnswered s.cfg s.env d n (chunkCount s.cfg n)) :
    (runBurst d m t a buf n s).nch = chunkCount s.cfg n ∧
      (runBurst d m t a buf n s).k = chunkCount s.cfg n ∧
      Completed s (runBurst d m t a buf n s)
        (chunkEntries s.cfg s.env d m t a buf n (chunkCount s.cfg n))
        { status := .ok, data := burstData d n (runBurst d m t a buf n s), chunksOk := 0 } := by
  cases d with
  | write =>
    rw [runBurst_ok ho hn hc hall]
    exact ⟨by simp, by simp, State.respond_completed (by simp) (by simp) _⟩
  | read =>
    rw [burstData, runBurst_read_ok_rbuf ho hn hc hall,
      List.take_of_length_le (chunksReceived_all_length hall).le, runBurst_ok ho hn hc hall]
    exact ⟨by simp, by simp, State.respond_completed (by simp) (by simp) _⟩

end Outcomes

/-! ## The statements -/

/-- Settles O16: `runBurst` of the latched operands, clause by clause. -/
theorem writeBurstOutcome : Obligations.WriteBurstOutcome := by
  unfold Obligations.WriteBurstOutcome
  refine ⟨rfl, fun s m t a buf hb => ?_⟩
  obtain ⟨hopen, hcmd, hwbuf⟩ := runBurst_frame .write m t a buf buf.length
    (s.latch (.writeBurst m t a buf))
  refine ⟨_, exec_writeBurst hb buf, hopen, hwbuf, by simp [hcmd], fun ho => ?_,
    fun ho hbuf => ?_, fun ho hbuf hreject haddr => ?_, fun j ho hc hj hbefore hfail => ?_,
    fun ho hbuf hc hall => ?_⟩
  · exact .of_latch (runBurst_closed_completed ho)
  · subst hbuf
    exact .of_latch (runBurst_empty_completed ho)
  · exact .of_latch (runBurst_rejected_completed ho (List.length_pos_iff.2 hbuf)
      (burstRejected_iff.2 ⟨hreject, haddr⟩))
  · obtain ⟨hnch, hk, hdone⟩ :=
      runBurst_fail_completed (s := s.latch (.writeBurst m t a buf)) (m := m) (t := t) (buf := buf)
        ho (burstRejected_eq_false_iff.2 hc) hj hbefore hfail
    exact ⟨hnch, hk, hdone.of_latch⟩
  · obtain ⟨hnch, hk, hdone⟩ :=
      runBurst_ok_completed (s := s.latch (.writeBurst m t a buf)) (m := m) (t := t) (buf := buf)
        ho (List.length_pos_iff.2 hbuf) (burstRejected_eq_false_iff.2 hc) hall
    exact ⟨hnch, hk, hdone.of_latch⟩

/-- Settles O17: the same clauses of a read, which stores what it receives and delivers what it has stored. -/
theorem readBurstOutcome : Obligations.ReadBurstOutcome := by
  unfold Obligations.ReadBurstOutcome
  refine ⟨rfl, fun s m t a n hb => ?_⟩
  obtain ⟨hopen, hcmd, -⟩ := runBurst_frame .read m t a [] n (s.latch (.readBurst m t a n))
  refine ⟨_, exec_readBurst hb n, hopen, by simp [hcmd], fun ho => ?_, fun ho hn => ?_,
    fun ho hn hreject haddr => ?_, fun j ho hc hj hbefore hfail => ?_, fun ho hn hc hall => ?_⟩
  · exact .of_latch (runBurst_closed_completed ho)
  · subst hn
    exact .of_latch (runBurst_empty_completed ho)
  · exact .of_latch (runBurst_rejected_completed ho hn (burstRejected_iff.2 ⟨hreject, haddr⟩))
  · obtain ⟨hnch, hk, hdone⟩ :=
      runBurst_fail_completed (s := s.latch (.readBurst m t a n)) (m := m) (t := t) (buf := [])
        ho (burstRejected_eq_false_iff.2 hc) hj hbefore hfail
    exact ⟨hnch, hk, hdone.of_latch⟩
  · have hpass := burstRejected_eq_false_iff.2 hc
    obtain ⟨hnch, hk, hdone⟩ :=
      runBurst_ok_completed (s := s.latch (.readBurst m t a n)) (m := m) (t := t) (buf := [])
        ho hn hpass hall
    have hrbuf := runBurst_read_ok_rbuf (s := s.latch (.readBurst m t a n)) (m := m) (t := t)
      (buf := []) ho hn hpass hall
    have hlen := (congrArg List.length hrbuf).trans (chunksReceived_all_length hall)
    rw [burstData, List.take_of_length_le hlen.le] at hdone
    exact ⟨hnch, hk, hrbuf, hlen, hdone.of_latch⟩

end Sys2Proof.Machine
end

section
/-! Errors (60_exceptions.md R192, R193): how a command reports its transactions, said once for every command, and the
independence of a command from the status registers; the statements `FailureIsNeverHidden` and `NoErrorIsSticky`. -/

namespace Sys2Proof.Machine

/-! ## How a command reports its transactions (R184, R185, R193) -/

/-- The status with which a command reports a transaction answered `Fail`: `BusIoError` of a single-byte transfer (R184),
`PartialBurstFailure` of a burst (R185). The other operations issue no transaction. -/
def failStatus : Instr → Status
  | .writeByte _ _ _ _ => .busIoError
  | .readByte _ _ _ => .busIoError
  | _ => .partialBurstFailure

theorem failStatus_isBusError (i : Instr) : (failStatus i).isBusError = true := by
  cases i <;> rfl

theorem failStatus_eq_busIoError {i : Instr} (h : failStatus i = .busIoError) :
    ∃ m t a v, i = .writeByte m t a v ∨ i = .readByte m t a := by
  cases i with
  | writeByte m t a v => exact ⟨m, t, a, v, .inl rfl⟩
  | readByte m t a => exact ⟨m, t, a, 0#8, .inr rfl⟩
  | _ => cases h

/-- The transactions `es` of a command and its response `r`: all answered `Ok` and no bus error, or the last one alone
answered `Fail`, reported as `failure`. -/
inductive Reported (failure : Status) : List TraceEntry → Response → Prop
  | clean {es : List TraceEntry} {r : Response} (answered : ∀ e ∈ es, e.answer.isOk = true)
      (status : r.status.isBusError = false) : Reported failure es r
  | failed {pre : List TraceEntry} {e : TraceEntry} {r : Response}
      (answered : ∀ x ∈ pre, x.answer.isOk = true) (fail : e.answer = .fail)
      (status : r.status = failure) : Reported failure (pre ++ [e]) r

namespace Reported

variable {failure : Status} {es : List TraceEntry} {r : Response}

theorem silent (h : r.status.isBusError = false) : Reported failure [] r :=
  clean (by simp) h

theorem answered_of_ok (h : Reported failure es r) (hfailure : failure.isBusError = true)
    (hr : r.status = .ok) : ∀ e ∈ es, e.answer.isOk = true := by
  cases h with
  | clean answered => exact answered
  | failed _ _ status =>
    rw [← status, hr] at hfailure
    cases hfailure

/-- A transaction answered `Fail` is the last one, and the response says so. -/
theorem last_of_fail (h : Reported failure es r) {j : Nat} (hj : j < es.length)
    (hfail : es[j].answer = .fail) : j + 1 = es.length ∧ r.status = failure := by
  cases h with
  | clean answered =>
    have := answered _ (List.getElem_mem hj)
    simp [hfail, BusAnswer.isOk] at this
  | @failed pre e _ answered _ status =>
    refine ⟨?_, status⟩
    by_contra hlast
    have hpre : j < pre.length := by simp at hj hlast; omega
    have := answered _ (List.getElem_mem hpre)
    rw [List.getElem_append_left hpre] at hfail
    simp [hfail, BusAnswer.isOk] at this

theorem of_busIoError (h : Reported failure es r) (hr : r.status = .busIoError) :
    failure = .busIoError ∧ es ≠ [] := by
  cases h with
  | clean _ status =>
    rw [hr] at status
    cases status
  | failed _ _ status => exact ⟨status ▸ hr, by simp⟩

end Reported

/-! ## The session commands (43_session.md R170, R171): no transaction -/

section Session

variable {s u : State}

theorem exec_openBus_reported (hb : s.busy = false) (hx : exec .openBus s = .next u) :
    ∃ r, Completed s u [] r ∧ r.status.isBusError = false := by
  simp only [exec, execOpenBus, State.accepting_idle hb, Host.Outcome.next.injEq] at hx
  subst hx
  split
  · exact ⟨_, State.raise_completed (by simp) (by simp) .deviceUnavailable 0, rfl⟩
  · split
    · exact ⟨_, State.respond_completed (by simp) (by simp) .absent, rfl⟩
    · exact ⟨_, State.raise_completed (by simp) (by simp) .deviceUnavailable 0, rfl⟩

theorem exec_closeBus_reported (hb : s.busy = false) (hx : exec .closeBus s = .next u) :
    ∃ r, Completed s u [] r ∧ r.status.isBusError = false := by
  simp only [exec, execCloseBus, State.accepting_idle hb] at hx
  split at hx
  · cases hx
    exact ⟨_, State.respond_completed (by simp) (by simp) .absent, rfl⟩
  · cases hx

end Session

/-! ## The transfers -/

theorem writeByte_reported {s u : State} {m t a v : Byte} (hb : s.busy = false)
    (hx : exec (.writeByte m t a v) s = .next u) :
    ∃ es r, Completed s u es r ∧ Reported .busIoError es r := by
  obtain ⟨u', hx', -, -, hclosed, hrejected, hfail, hok⟩ := writeByteOutcome.2 s m t a v hb
  obtain rfl : u' = u := Host.Outcome.next.inj (hx'.symm.trans hx)
  cases ho : s.isOpen with
  | false => exact ⟨_, _, hclosed ho, .silent rfl⟩
  | true =>
    by_cases ha : 0x7F < a.toNat ∧ s.cfg.addrOverflow = .reject
    · exact ⟨_, _, hrejected ho ha, .silent rfl⟩
    · obtain hf | hk := Env.answer_zero s.env
      · exact ⟨_, _, hfail ho ha hf, .failed (pre := []) (by simp) rfl rfl⟩
      · exact ⟨_, _, hok ho ha hk, .clean (by simp [BusAnswer.isOk]) rfl⟩

theorem readByte_reported {s u : State} {m t a : Byte} (hb : s.busy = false)
    (hx : exec (.readByte m t a) s = .next u) :
    ∃ es r, Completed s u es r ∧ Reported .busIoError es r := by
  obtain ⟨u', hx', -, -, hclosed, hrejected, hfail, hok⟩ := readByteOutcome.2 s m t a hb
  obtain rfl : u' = u := Host.Outcome.next.inj (hx'.symm.trans hx)
  cases ho : s.isOpen with
  | false => exact ⟨_, _, hclosed ho, .silent rfl⟩
  | true =>
    by_cases ha : 0x7F < a.toNat ∧ s.cfg.addrOverflow = .reject
    · exact ⟨_, _, hrejected ho ha, .silent rfl⟩
    · obtain hf | ⟨b, hk⟩ := Env.answer_one s.env
      · exact ⟨_, _, hfail ho ha hf, .failed (pre := []) (by simp) rfl rfl⟩
      · exact ⟨_, _, (hok ho ha b hk).2, .clean (by simp [BusAnswer.isOk]) rfl⟩

theorem chunkEntries_answered {cfg : Params} {e : Env} {d : Direction} {n j : Nat}
    (h : chunksAnswered cfg e d n j) (m t a : Byte) (buf : List Byte) :
    ∀ x ∈ chunkEntries cfg e d m t a buf n j, x.answer.isOk = true := by
  intro x hx
  obtain ⟨k, hk, rfl⟩ := List.mem_map.1 hx
  exact h k (List.mem_range.1 hk)

/-- The entries of a burst that fails are those answered `Ok` and that of the first chunk answered `Fail`. -/
theorem runBurst_reported (d : Direction) (m t a : Byte) (buf : List Byte) (n : Nat) (s : State) :
    ∃ es r, Completed s (runBurst d m t a buf n s) es r ∧ Reported .partialBurstFailure es r := by
  cases ho : s.isOpen with
  | false => exact ⟨_, _, runBurst_closed_completed ho, .silent rfl⟩
  | true =>
    obtain rfl | hn := Nat.eq_zero_or_pos n
    · exact ⟨_, _, runBurst_empty_completed ho, .silent rfl⟩
    cases hc : burstRejected s.cfg a n with
    | true => exact ⟨_, _, runBurst_rejected_completed ho hn hc, .silent rfl⟩
    | false =>
      obtain hall | ⟨j, hj, hbefore, hfail⟩ :=
        chunksAnswered_or_fail s.cfg s.env d n (chunkCount s.cfg n)
      · obtain ⟨-, -, hdone⟩ := runBurst_ok_completed ho hn hc hall
        exact ⟨_, _, hdone, .clean (chunkEntries_answered hall m t a buf) rfl⟩
      · obtain ⟨-, -, hdone⟩ := runBurst_fail_completed ho hc hj hbefore hfail
        rw [chunkEntries_succ] at hdone
        exact ⟨_, _, hdone, .failed (chunkEntries_answered hbefore m t a buf) hfail rfl⟩

/-! ## Every command -/

/-- Every command that an idle block takes and that has a result completes and reports its transactions. -/
theorem exec_reported {s u : State} {i : Instr} (hb : s.busy = false) (hi : i.isCommand = true)
    (hx : exec i s = .next u) :
    ∃ es r, Completed s u es r ∧ Reported (failStatus i) es r := by
  cases i with
  | openBus =>
    obtain ⟨r, hdone, hr⟩ := exec_openBus_reported hb hx
    exact ⟨[], r, hdone, .silent hr⟩
  | closeBus =>
    obtain ⟨r, hdone, hr⟩ := exec_closeBus_reported hb hx
    exact ⟨[], r, hdone, .silent hr⟩
  | writeByte => exact writeByte_reported hb hx
  | readByte => exact readByte_reported hb hx
  | writeBurst m t a buf =>
    obtain rfl := Host.Outcome.next.inj ((exec_writeBurst hb buf).symm.trans hx)
    obtain ⟨es, r, hdone, hr⟩ := runBurst_reported .write m t a buf buf.length
      (s.latch (.writeBurst m t a buf))
    exact ⟨es, r, hdone.of_latch, hr⟩
  | readBurst m t a n =>
    obtain rfl := Host.Outcome.next.inj ((exec_readBurst hb n).symm.trans hx)
    obtain ⟨es, r, hdone, hr⟩ := runBurst_reported .read m t a [] n (s.latch (.readBurst m t a n))
    exact ⟨es, r, hdone.of_latch, hr⟩
  | encodeHeaderW => cases hi
  | encodeHeaderR => cases hi

/-- Settles O27: by the two ways a command reports its transactions. -/
theorem failureIsNeverHidden : Obligations.FailureIsNeverHidden := by
  unfold Obligations.FailureIsNeverHidden
  intro s u i hb hi hx
  obtain ⟨es, r, hdone, hr⟩ := exec_reported hb hi hx
  refine ⟨es, r, hdone.traced, hdone.responded, hr.answered_of_ok (failStatus_isBusError i),
    fun j hj hfail => ?_⟩
  obtain ⟨hlast, hstatus⟩ := hr.last_of_fail hj hfail
  exact ⟨hlast, hstatus ▸ failStatus_isBusError i⟩

/-! ## The status registers are written, never read (R192) -/

/-- The block with other values in the status registers. -/
def State.withStatus (st : Status) (k : Nat) (s : State) : State :=
  { s with lastStatus := st, chunksOk := k }

namespace State

variable (s : State) (st : Status) (k : Nat)

@[simp] theorem withStatus_busy : (s.withStatus st k).busy = s.busy := rfl
@[simp] theorem withStatus_isOpen : (s.withStatus st k).isOpen = s.isOpen := rfl
@[simp] theorem withStatus_cfg : (s.withStatus st k).cfg = s.cfg := rfl
@[simp] theorem withStatus_k : (s.withStatus st k).k = s.k := rfl
@[simp] theorem withStatus_env : (s.withStatus st k).env = s.env := rfl
@[simp] theorem withStatus_hdr : (s.withStatus st k).hdr = s.hdr := rfl

@[simp] theorem withStatus_latch (i : Instr) :
    (s.withStatus st k).latch i = (s.latch i).withStatus st k := by
  cases i <;> rfl

@[simp] theorem withStatus_evalHeader (m t : Byte) (a : Nat) (d : Direction) :
    (s.withStatus st k).evalHeader m t a d = (s.evalHeader m t a d).withStatus st k := rfl

@[simp] theorem withStatus_busTxn (tx : List Byte) (n : Nat) :
    (s.withStatus st k).busTxn tx n = (s.busTxn tx n).withStatus st k := rfl

@[simp] theorem withStatus_setOpen (b : Bool) :
    (s.withStatus st k).setOpen b = (s.setOpen b).withStatus st k := rfl

@[simp] theorem withStatus_setK (j : Nat) :
    (s.withStatus st k).setK j = (s.setK j).withStatus st k := rfl

@[simp] theorem withStatus_setNch (j : Nat) :
    (s.withStatus st k).setNch j = (s.setNch j).withStatus st k := rfl

@[simp] theorem withStatus_setRdata (b : Byte) :
    (s.withStatus st k).setRdata b = (s.setRdata b).withStatus st k := rfl

@[simp] theorem withStatus_drawAvail :
    (s.withStatus st k).drawAvail = s.drawAvail.withStatus st k := rfl

@[simp] theorem withStatus_storeChunk (d : Direction) (off : Nat) (rx : List Byte) :
    (s.withStatus st k).storeChunk d off rx = (s.storeChunk d off rx).withStatus st k := by
  cases d <;> rfl

/-- Completion overwrites both registers. -/
@[simp] theorem withStatus_finish (r : Response) :
    (s.withStatus st k).finish r = s.finish r := by
  unfold State.finish
  split <;> rfl

@[simp] theorem withStatus_respond (data : RespData) :
    (s.withStatus st k).respond data = s.respond data :=
  withStatus_finish s st k _

@[simp] theorem withStatus_raise (st' : Status) (j : Nat) :
    (s.withStatus st k).raise st' j = s.raise st' j :=
  withStatus_finish s st k _

end State

@[simp] theorem burstData_withStatus (d : Direction) (n : Nat) (s : State) (st : Status) (k : Nat) :
    burstData d n (s.withStatus st k) = burstData d n s := by
  cases d <;> rfl

section Burst

variable (d : Direction) (m t a : Byte) (buf : List Byte) (n : Nat) (st : Status) (k : Nat)

@[simp] theorem burstChunks_withStatus (left : Nat) (s : State) :
    burstChunks d m t a buf n left (s.withStatus st k) = burstChunks d m t a buf n left s := by
  induction left generalizing s with
  | zero => simp [burstChunks]
  | succ left ih => simp [burstChunks, ih]

@[simp] theorem runBurst_withStatus (s : State) :
    runBurst d m t a buf n (s.withStatus st k) = runBurst d m t a buf n s := by
  cases ho : s.isOpen with
  | false => simp [runBurst_closed, ho]
  | true =>
    obtain rfl | hn := Nat.eq_zero_or_pos n
    · simp [runBurst_empty, ho]
    · cases hc : burstRejected s.cfg a n with
      | true => simp [runBurst_rejected, ho, hn, hc]
      | false => simp [runBurst, ho, hn.ne', hc]

end Burst

/-- Every way a command can end goes through completion, and nothing before it reads the registers. -/
theorem exec_withStatus {s : State} {i : Instr} (hb : s.busy = false) (hi : i.isCommand = true)
    (st : Status) (k : Nat) : exec i (s.withStatus st k) = exec i s := by
  cases i with
  | openBus => simp [exec, execOpenBus, State.accepting_idle, hb]
  | closeBus => simp [exec, execCloseBus, State.accepting_idle, hb]
  | writeByte => simp [exec, execWriteByte, State.accepting_idle, hb]
  | readByte => simp [exec, execReadByte, State.accepting_idle, hb]
  | writeBurst => simp [exec_writeBurst, hb]
  | readBurst => simp [exec_readBurst, hb]
  | encodeHeaderW => cases hi
  | encodeHeaderR => cases hi

/-! ## A failed command issued again (R192) -/

section IssuedAgain

variable {s u : State} {m t a v : Byte} {i : Instr}

/-- The checks of a single-byte transfer read `OPEN` and the configuration, which a transfer leaves as they were. -/
theorem singleTransfer_checked_frame (hb : s.busy = false)
    (hi : i = .writeByte m t a v ∨ i = .readByte m t a) (ho : s.isOpen = true)
    (ha : ¬(0x7F < a.toNat ∧ s.cfg.addrOverflow = .reject)) (hx : exec i s = .next u) :
    u.isOpen = s.isOpen ∧ u.cfg = s.cfg := by
  obtain rfl | rfl := hi
  · obtain hf | hk := Env.answer_zero s.env
    · obtain rfl := Host.Outcome.next.inj ((exec_writeByte_failed hb ho ha hf).symm.trans hx)
      simp
    · obtain rfl := Host.Outcome.next.inj ((exec_writeByte_ok hb ho ha hk).symm.trans hx)
      simp
  · obtain hf | ⟨b, hk⟩ := Env.answer_one s.env
    · obtain rfl := Host.Outcome.next.inj ((exec_readByte_failed hb ho ha hf).symm.trans hx)
      simp
    · obtain rfl := Host.Outcome.next.inj ((exec_readByte_ok hb ho ha hk).symm.trans hx)
      simp

/-- A single-byte transfer that has made its transaction had passed its checks, and passes them again. -/
theorem singleTransfer_again (hb : s.busy = false)
    (hi : i = .writeByte m t a v ∨ i = .readByte m t a) (hx : exec i s = .next u)
    (hready : u.busy = false) (hmoved : u.trace ≠ s.trace) :
    ∃ w e, exec i u = .next w ∧ w.trace = u.trace ++ [e] := by
  have hchecks : s.isOpen = true ∧ ¬(0x7F < a.toNat ∧ s.cfg.addrOverflow = .reject) := by
    by_contra hnot
    obtain ⟨u', hx', htrace⟩ := (singleTransferIsOneTransaction s m t a v i hb hi).2 hnot
    obtain rfl : u' = u := Host.Outcome.next.inj (hx'.symm.trans hx)
    exact hmoved htrace
  obtain ⟨hopen, hcfg⟩ := singleTransfer_checked_frame hb hi hchecks.1 hchecks.2 hx
  rw [← hopen, ← hcfg] at hchecks
  exact (singleTransferIsOneTransaction u m t a v i hready hi).1 hchecks

/-- Only a single-byte transfer whose transaction failed ends in `BusIoError`. -/
theorem exec_busIoError_again (hb : s.busy = false) (hi : i.isCommand = true)
    (hx : exec i s = .next u) (hstatus : u.lastStatus = .busIoError) :
    ∃ w e, exec i u = .next w ∧ w.trace = u.trace ++ [e] := by
  obtain ⟨es, r, hdone, hr⟩ := exec_reported hb hi hx
  obtain ⟨hfailure, hne⟩ := hr.of_busIoError (hdone.status ▸ hstatus)
  obtain ⟨m, t, a, v, hsingle⟩ := failStatus_eq_busIoError hfailure
  exact singleTransfer_again hb hsingle hx hdone.ready (by simp [hdone.traced, hne])

end IssuedAgain

/-- An idle block stays idle: a command completes, and the encoder does not move the sequencer. -/
theorem exec_leaves_idle {s u : State} {i : Instr} (hb : s.busy = false)
    (hx : exec i s = .next u) : u.busy = false := by
  cases hi : i.isCommand with
  | true =>
    obtain ⟨_, _, hdone, -⟩ := exec_reported hb hi hx
    exact hdone.ready
  | false =>
    obtain ⟨m, t, a, d, heval⟩ := exec_eq_evalHeader hi
    obtain rfl := Host.Outcome.next.inj ((heval s).symm.trans hx)
    exact hb

/-- Settles O26: completion leaves the block idle and overwrites the status registers, which nothing reads, and a
transfer that failed has left its checks' inputs as they were. -/
theorem noErrorIsSticky : Obligations.NoErrorIsSticky := by
  unfold Obligations.NoErrorIsSticky
  exact ⟨fun _ _ _ => exec_leaves_idle, fun _ _ st k hb hi => exec_withStatus hb hi st k,
    fun _ _ _ => exec_busIoError_again⟩

end Sys2Proof.Machine
end

section
/-! Encoding and decoding (30_encoding.md sections 1 to 3) and what the header encoder answers (40_header_encoder.md R110,
R112): the encoder calls as one family over the direction, and the statements `DecodeEncodeRoundTrip`,
`EveryHeaderWordIsOneHeader`, `HeaderIsUnambiguous`, `EncodeHeaderResult` and `SpecWordsDecode`. -/

namespace Sys2Proof.Machine

/-! ## The encoder calls -/

/-- The encoder call of a direction: the two header rows of the opcode table as one family. -/
def headerCall : Direction → Byte → Byte → Nat → Instr
  | .write => .encodeHeaderW
  | .read => .encodeHeaderR

theorem encode_headerCall (w : Bool) (d : Direction) (m t : Byte) (a : Nat) :
    encode w (headerCall d m t a) = .header (encodeCall w d m t a) := by
  cases d <;> rfl

/-- A header word decodes to the call of its direction with the fields of its three bytes (30_encoding.md R90). -/
theorem decodeHeader_eq_headerCall (w : Bool) (h : HeaderWord) :
    decodeHeader w h = headerCall (dirOfBit w (byte2Dir (headerB2 h))) (headerB0 h) (headerB1 h)
      (byte2Addr (headerB2 h)).toNat := by
  unfold decodeHeader
  cases dirOfBit w (byte2Dir (headerB2 h)) <;> rfl

/-- The seven address bits of a header hold every representable address. -/
theorem toNat_ofNat_of_representable {a : Nat} (ha : a ≤ 0x7F) : (BitVec.ofNat 7 a).toNat = a := by
  rw [BitVec.toNat_ofNat, Nat.mod_eq_of_lt (by omega)]

theorem decodeHeader_encodeCall (w : Bool) (d : Direction) (m t : Byte) {a : Nat}
    (ha : a ≤ 0x7F) : decodeHeader w (encodeCall w d m t a) = headerCall d m t a := by
  rw [decodeHeader_eq_headerCall]
  simp only [encodeCall, headerB0_headerWord, headerB1_headerWord, headerB2_headerWord,
    byte2Dir_headerByte2, byte2Addr_headerByte2, dirOfBit_dirBit, muxCode, tgtCode,
    toNat_ofNat_of_representable ha]

theorem encode_decodeHeader (w : Bool) (h : HeaderWord) :
    encode w (decodeHeader w h) = .header h := by
  rw [decodeHeader_eq_headerCall, encode_headerCall, encodeCall, dirBit_dirOfBit,
    BitVec.ofNat_toNat, BitVec.setWidth_eq, headerByte2_of_fields, muxCode, tgtCode,
    headerWord_of_bytes]

/-! ## The statements about words -/

/-- Settles O4: a command record holds its operands as they are; a header word holds the seven bits of a representable
address. -/
theorem decodeEncodeRoundTrip : Obligations.DecodeEncodeRoundTrip := by
  unfold Obligations.DecodeEncodeRoundTrip
  intro w i hwf
  cases i with
  | encodeHeaderW m t a =>
    exact congrArg Except.ok (decodeHeader_encodeCall w .write m t (of_decide_eq_true hwf))
  | encodeHeaderR m t a =>
    exact congrArg Except.ok (decodeHeader_encodeCall w .read m t (of_decide_eq_true hwf))
  | openBus | closeBus | writeByte | readByte | writeBurst | readBurst => rfl

/-- Settles O5: the call a word decodes to encodes back to it, and by the round trip no other call does. -/
theorem everyHeaderWordIsOneHeader : Obligations.EveryHeaderWordIsOneHeader := by
  unfold Obligations.EveryHeaderWordIsOneHeader
  intro w h
  refine ⟨encode_decodeHeader w h, Laws.WfDecodes.decodeHeader_wf w h, fun i hwf hi => ?_⟩
  have hround := decodeEncodeRoundTrip w i hwf
  rw [hi] at hround
  exact (Except.ok.inj hround).symm

/-- Settles O3: the records of the six operation codes, and the header `01 03 AA` under both values of `DIR_WRITE`. -/
theorem specWordsDecode : Obligations.SpecWordsDecode := by
  unfold Obligations.SpecWordsDecode
  refine ⟨fun _ _ _ _ _ _ _ => ⟨rfl, rfl, rfl, rfl, rfl, rfl⟩, ?_, ?_⟩
  · decide
  · decide

/-! ## What the encoder answers -/

/-- Header byte 2 as a number: the direction bit above the seven address bits (30_encoding.md R83). -/
theorem headerByte2_eq_ofNat (d : Bool) (x : BitVec 7) :
    headerByte2 d x = BitVec.ofNat 8 (d.toNat * 128 + x.toNat) := by
  revert d x; decide

/-- The encoder's answer with header byte 2 as a number. -/
theorem encodeHeader_eq_ite (cfg : Params) (m t : Byte) (a : Nat) (d : Direction) :
    encodeHeader cfg m t a d =
      if 0x7F < a ∧ cfg.addrOverflow = .reject then .invalidAddress
      else .header m t (BitVec.ofNat 8 ((dirBit cfg.dirWrite d).toNat * 128 + a % 128)) := by
  rw [encodeHeader, headerByte2_eq_ofNat, BitVec.toNat_ofNat, muxCode, tgtCode]

/-- Settles O6: the direction bit of a read is `1 - DIR_WRITE`. -/
theorem encodeHeaderResult : Obligations.EncodeHeaderResult := by
  unfold Obligations.EncodeHeaderResult
  intro m t a s
  have hread : (dirBit s.cfg.dirWrite .read).toNat = 1 - s.cfg.dirWrite.toNat := by
    cases s.cfg.dirWrite <;> rfl
  refine ⟨?_, ?_⟩
  · rw [exec, execEncodeHeaderW, State.evalHeader, encodeHeader_eq_ite, dirBit]
  · rw [exec, execEncodeHeaderR, State.evalHeader, encodeHeader_eq_ite, hread]

/-- The fields of a header give the operands of a representable address back (40_header_encoder.md R112). -/
theorem encodeHeader_fields (cfg : Params) (m t : Byte) {a : Nat} (d : Direction) (ha : a ≤ 0x7F) :
    ∃ b2, encodeHeader cfg m t a d = .header m t b2 ∧
      dirOfBit cfg.dirWrite (byte2Dir b2) = d ∧ (byte2Addr b2).toNat = a :=
  ⟨_, encodeHeader_eq_header (encodeHeader_valid (by omega) m t d), by simp,
    by rw [byte2Addr_headerByte2, toNat_ofNat_of_representable ha]⟩

/-- Settles O8: equal headers have equal fields, which are the operands; `MASK` drops the bits above the seven. -/
theorem headerIsUnambiguous : Obligations.HeaderIsUnambiguous := by
  unfold Obligations.HeaderIsUnambiguous
  refine ⟨fun cfg m t m' t' a a' d d' ha ha' heq => ?_,
    fun cfg m t a d => encodeHeader_fields cfg m t d, fun cfg m t a d hmask => ?_⟩
  · obtain ⟨b, hb, hdir, haddr⟩ := encodeHeader_fields cfg m t d ha
    obtain ⟨b', hb', hdir', haddr'⟩ := encodeHeader_fields cfg m' t' d' ha'
    obtain ⟨rfl, rfl, rfl⟩ := HeaderOut.header.inj (hb.symm.trans (heq.trans hb'))
    exact ⟨rfl, rfl, haddr.symm.trans haddr', hdir.symm.trans hdir'⟩
  · simp [encodeHeader_eq_ite, hmask]

end Sys2Proof.Machine
end

section
/-! The step-by-step reading of a command (42_burst.md R150): the steps of the sequencer as equations, runs of them, and
that after *Accept* they reach the state the whole command gives; the statement `StepByStepAgreesWithWhole`. -/

namespace Sys2Proof.Machine

/-! ## Moving the sequencer commutes with the other updates -/

@[simp] theorem State.setPhase_setPhase (s : State) (p q : Phase) :
    (s.setPhase p).setPhase q = s.setPhase q := rfl

@[simp] theorem burstData_setPhase (d : Direction) (n : Nat) (s : State) (p : Phase) :
    burstData d n (s.setPhase p) = burstData d n s := by
  cases d <;> rfl

theorem sessionEffect_setPhase (r : Response) (s : State) (p : Phase) :
    sessionEffect r (s.setPhase p) = (sessionEffect r s).setPhase p := by
  unfold sessionEffect
  split
  · simp only [State.setPhase_cmd]
    split <;> rfl
  · rfl

/-! ## Runs of the sequencer -/

/-- `n` steps of a busy block lead from a state to another. -/
inductive Drives : Nat → State → State → Prop
  | refl (s : State) : Drives 0 s s
  | step {n : Nat} {s u : State} (busy : s.busy = true) (rest : Drives n (sequencerStep s) u) :
      Drives (n + 1) s u

/-- The machine makes these steps whatever its host presents (70_reset_and_hazards.md R213). -/
theorem Drives.run {n : Nat} {s u : State} (h : Drives n s u) :
    Sys2Proof.core.run n s = .next u := by
  induction h with
  | refl s => exact run_zero s
  | step busy _ ih => rw [run_busy busy, ih]

/-- What every step of a busy block keeps, a run keeps. -/
theorem Drives.keeps {P : State → Prop}
    (hstep : ∀ s : State, s.busy = true → P s → P (sequencerStep s)) {n : Nat} {s u : State}
    (h : Drives n s u) (hs : P s) : P u := by
  induction h with
  | refl => exact hs
  | step busy _ ih => exact ih (hstep _ busy hs)

/-! ## Step 4, *Complete* -/

theorem drives_complete (s : State) (r : Response) :
    Drives 1 (s.complete r) ((sessionEffect r s).finish r) := by
  have hstep : sequencerStep (s.complete r) = (sessionEffect r s).finish r := by
    simp only [sequencerStep, State.complete, State.setPhase_phase, completeStep]
    rw [sessionEffect_setPhase, State.finish_setPhase]
  exact .step rfl (hstep ▸ .refl _)

theorem drives_failing {st : Status} (h : st ≠ .ok) (s : State) (k : Nat) :
    Drives 1 (s.failing st k) (s.raise st k) := by
  have hrun := drives_complete s (errorResponse st k)
  rwa [sessionEffect_of_error h] at hrun

theorem drives_succeeding {s : State} (h : s.cmd.op.isTransfer = true) (data : RespData) :
    Drives 1 (s.succeeding data) (s.respond data) := by
  have hrun := drives_complete s { status := .ok, data := data, chunksOk := 0 }
  rwa [sessionEffect_of_transfer (by rintro e; rw [e] at h; cases h)
    (by rintro e; rw [e] at h; cases h)] at hrun

/-! ## Steps 2 and 3, *Issue* and *Answer* -/

theorem startTxn_invalid {s : State} {x : Nat} {d : Direction}
    (h : encodeHeader s.cfg s.cmd.mux s.cmd.tgt x d = .invalidAddress) (data : List Byte)
    (len : Nat) : startTxn d x data len s =
      (s.evalHeader s.cmd.mux s.cmd.tgt x d).failing .invalidAddress 0 := by
  simp [startTxn, h]

theorem startTxn_valid {s : State} {x : Nat} {d : Direction}
    (h : encodeHeader s.cfg s.cmd.mux s.cmd.tgt x d ≠ .invalidAddress) (data : List Byte)
    (len : Nat) : startTxn d x data len s =
      (s.evalHeader s.cmd.mux s.cmd.tgt x d).setPhase (.waiting
        ((encodeHeader s.cfg s.cmd.mux s.cmd.tgt x d).bytes ++ frameData d data)
        (frameRxLen d len)) := by
  simp [startTxn, encodeHeader_eq_header h, HeaderOut.bytes]

theorem answerStep_fail {s : State} {n : Nat} (h : s.env.answer n = .fail) (tx : List Byte) :
    answerStep tx n s = answeredFail (s.busTxn tx n) := by
  simp [answerStep, h]

theorem answerStep_ok {s : State} {n : Nat} {rx : List Byte} (h : s.env.answer n = .ok rx)
    (tx : List Byte) : answerStep tx n s = answeredOk rx (s.busTxn tx n) := by
  simp [answerStep, h]

theorem drives_issue {s u : State} {n : Nat} (h : Drives n (issueStep (s.setPhase .issue)) u) :
    Drives (n + 1) (s.setPhase .issue) u := .step rfl h

theorem drives_waiting {s u : State} {n rxLen : Nat} {tx : List Byte}
    (h : Drives n (answerStep tx rxLen (s.setPhase (.waiting tx rxLen))) u) :
    Drives (n + 1) (s.setPhase (.waiting tx rxLen)) u := .step rfl h

/-! ## A single-byte transfer -/

/-- The single-byte transfer of a direction, as a value of `CMD_OP`. -/
def singleOp : Direction → Op
  | .write => .writeByte
  | .read => .readByte

section Single

variable {s : State}

theorem acceptSingle_closed (ho : s.isOpen = false) (d : Direction) :
    acceptSingle d s = s.failing .notOpen 0 := by
  simp [acceptSingle, ho]

theorem acceptSingle_rejected {d : Direction} (ho : s.isOpen = true)
    (h : encodeHeader s.cfg s.cmd.mux s.cmd.tgt s.cmd.addr.toNat d = .invalidAddress) :
    acceptSingle d s =
      (s.evalHeader s.cmd.mux s.cmd.tgt s.cmd.addr.toNat d).failing .invalidAddress 0 := by
  simp [acceptSingle, ho, h]

theorem acceptSingle_passed {d : Direction} (ho : s.isOpen = true)
    (h : encodeHeader s.cfg s.cmd.mux s.cmd.tgt s.cmd.addr.toNat d ≠ .invalidAddress) :
    acceptSingle d s = (s.evalHeader s.cmd.mux s.cmd.tgt s.cmd.addr.toNat d).setPhase .issue := by
  simp [acceptSingle, ho, encodeHeader_eq_header h]

/-- *Issue* of a single-byte transfer sends, from the latches, its one frame (30_encoding.md R85, R86). -/
theorem issueStep_single {d : Direction} (hop : s.cmd.op = singleOp d)
    (h : encodeHeader s.cfg s.cmd.mux s.cmd.tgt s.cmd.addr.toNat d ≠ .invalidAddress) :
    issueStep s = (s.evalHeader s.cmd.mux s.cmd.tgt s.cmd.addr.toNat d).setPhase (.waiting
      ((encodeHeader s.cfg s.cmd.mux s.cmd.tgt s.cmd.addr.toNat d).bytes ++
        frameData d [s.cmd.val]) (frameRxLen d 1)) := by
  cases d <;> simp only [issueStep, hop, singleOp] <;> exact startTxn_valid h _ _

/-- A single-byte transfer that passes its checks is issued and waits for its answer. -/
theorem acceptSingle_passed_drives {d : Direction} {n : Nat} {u : State}
    (hop : s.cmd.op = singleOp d) (ho : s.isOpen = true)
    (h : encodeHeader s.cfg s.cmd.mux s.cmd.tgt s.cmd.addr.toNat d ≠ .invalidAddress)
    (hrest : ∀ p, Drives n (answerStep
      ((encodeHeader s.cfg s.cmd.mux s.cmd.tgt s.cmd.addr.toNat d).bytes ++
        frameData d [s.cmd.val]) (frameRxLen d 1)
      ((s.evalHeader s.cmd.mux s.cmd.tgt s.cmd.addr.toNat d).setPhase p)) u) :
    Drives (n + 2) (acceptSingle d s) u := by
  have hissue := issueStep_single
    (s := (s.evalHeader s.cmd.mux s.cmd.tgt s.cmd.addr.toNat d).setPhase .issue) hop h
  rw [acceptSingle_passed ho h]
  apply drives_issue
  rw [hissue]
  exact drives_waiting (hrest _)

theorem answeredFail_single {d : Direction} (hop : s.cmd.op = singleOp d) :
    answeredFail s = s.failing .busIoError 0 := by
  cases d <;> simp [answeredFail, hop, singleOp]

theorem writeByte_drives (hb : s.busy = false) (m t a v : Byte) :
    ∃ n w, n ≤ 3 ∧ Drives n (acceptSingle .write (s.latch (.writeByte m t a v))) w ∧
      exec (.writeByte m t a v) s = .next w := by
  cases ho : s.isOpen with
  | false =>
    rw [acceptSingle_closed (by simpa using ho)]
    exact ⟨1, _, by omega, drives_failing (by decide) _ 0, exec_writeByte_closed hb ho⟩
  | true =>
    by_cases ha : 0x7F < a.toNat ∧ s.cfg.addrOverflow = .reject
    · rw [acceptSingle_rejected (by simpa using ho) ((encodeHeader_invalid_iff ..).2 ha)]
      exact ⟨1, _, by omega, drives_failing (by decide) _ 0, exec_writeByte_rejected hb ho ha⟩
    · have hv := encodeHeader_valid ha m t .write
      obtain hf | hk := Env.answer_zero s.env
      · refine ⟨3, _, le_rfl, acceptSingle_passed_drives (d := .write) rfl ho hv fun p => ?_,
          exec_writeByte_failed hb ho ha hf⟩
        rw [answerStep_fail (by exact hf)]
        exact drives_failing (by decide) _ 0
      · refine ⟨3, _, le_rfl, acceptSingle_passed_drives (d := .write) rfl ho hv fun p => ?_,
          exec_writeByte_ok hb ho ha hk⟩
        rw [answerStep_ok (by exact hk)]
        exact drives_succeeding rfl .absent

theorem readByte_drives (hb : s.busy = false) (m t a : Byte) :
    ∃ n w, n ≤ 3 ∧ Drives n (acceptSingle .read (s.latch (.readByte m t a))) w ∧
      exec (.readByte m t a) s = .next w := by
  cases ho : s.isOpen with
  | false =>
    rw [acceptSingle_closed (by simpa using ho)]
    exact ⟨1, _, by omega, drives_failing (by decide) _ 0, exec_readByte_closed hb ho⟩
  | true =>
    by_cases ha : 0x7F < a.toNat ∧ s.cfg.addrOverflow = .reject
    · rw [acceptSingle_rejected (by simpa using ho) ((encodeHeader_invalid_iff ..).2 ha)]
      exact ⟨1, _, by omega, drives_failing (by decide) _ 0, exec_readByte_rejected hb ho ha⟩
    · have hv := encodeHeader_valid ha m t .read
      obtain hf | ⟨b, hk⟩ := Env.answer_one s.env
      · refine ⟨3, _, le_rfl, acceptSingle_passed_drives (d := .read) rfl ho hv fun p => ?_,
          exec_readByte_failed hb ho ha hf⟩
        rw [frameData, List.append_nil, answerStep_fail (by exact hf)]
        exact drives_failing (by decide) _ 0
      · refine ⟨3, _, le_rfl, acceptSingle_passed_drives (d := .read) rfl ho hv fun p => ?_,
          exec_readByte_ok hb ho ha hk⟩
        rw [frameData, List.append_nil, answerStep_ok (by exact hk)]
        exact drives_succeeding rfl (.byte b)

end Single

/-! ## A burst -/

/-- The burst of a direction, as a value of `CMD_OP`. -/
def burstOp : Direction → Op
  | .write => .writeBurst
  | .read => .readBurst

theorem burstOp_isTransfer (d : Direction) : (burstOp d).isTransfer = true := by
  cases d <;> rfl

/-- The state after the transaction of chunk `K`, before its answer is looked at. -/
def chunkTxn (d : Direction) (m t a : Byte) (buf : List Byte) (n : Nat) (s : State) : State :=
  (s.evalHeader m t (chunkAddr s.cfg a s.k) d).busTxn
    ((encodeHeader s.cfg m t (chunkAddr s.cfg a s.k) d).bytes ++
      frameData d (slice buf (chunkOff s.cfg s.k) (chunkLen s.cfg n s.k)))
    (frameRxLen d (chunkLen s.cfg n s.k))

/-- The bytes `rx` of chunk `K` stored, and `K` counted up. -/
def chunkStored (d : Direction) (rx : List Byte) (s : State) : State :=
  (s.storeChunk d (chunkOff s.cfg s.k) rx).setK (s.k + 1)

@[simp] theorem chunkStored_setPhase (d : Direction) (rx : List Byte) (s : State) (p : Phase) :
    chunkStored d rx (s.setPhase p) = (chunkStored d rx s).setPhase p := by
  cases d <;> rfl

section Burst

variable {d : Direction} {m t a : Byte} {buf rx : List Byte} {n left : Nat} {s : State}

theorem burstChunks_succ_invalid
    (hv : encodeHeader s.cfg m t (chunkAddr s.cfg a s.k) d = .invalidAddress) :
    burstChunks d m t a buf n (left + 1) s =
      (s.evalHeader m t (chunkAddr s.cfg a s.k) d).raise .invalidAddress 0 := by
  simp [burstChunks, hv]

theorem burstChunks_succ_fail
    (hv : encodeHeader s.cfg m t (chunkAddr s.cfg a s.k) d ≠ .invalidAddress)
    (hf : s.env.answer (frameRxLen d (chunkLen s.cfg n s.k)) = .fail) :
    burstChunks d m t a buf n (left + 1) s =
      (chunkTxn d m t a buf n s).raise .partialBurstFailure s.k := by
  simp [burstChunks, chunkTxn, encodeHeader_eq_header hv, hf, HeaderOut.bytes]

theorem burstChunks_succ_ok
    (hv : encodeHeader s.cfg m t (chunkAddr s.cfg a s.k) d ≠ .invalidAddress)
    (hk : s.env.answer (frameRxLen d (chunkLen s.cfg n s.k)) = .ok rx) :
    burstChunks d m t a buf n (left + 1) s =
      burstChunks d m t a buf n left (chunkStored d rx (chunkTxn d m t a buf n s)) := by
  simp [burstChunks, chunkTxn, chunkStored, encodeHeader_eq_header hv, hk, HeaderOut.bytes]

/-- A burst of an open block that passes its checks begins its chunks with `K = 0`. -/
theorem runBurst_passed (ho : s.isOpen = true) (hn : 0 < n)
    (hc : burstRejected s.cfg a n = false) (d : Direction) (buf : List Byte) :
    runBurst d m t a buf n s =
      burstChunks d m t a buf n (chunkCount s.cfg n) ((s.setNch (chunkCount s.cfg n)).setK 0) := by
  simp [runBurst, ho, hn.ne', hc]

theorem issueStep_burst (hop : s.cmd.op = burstOp d) : issueStep s = startChunk d s := by
  cases d <;> simp [issueStep, hop, burstOp]

theorem answeredFail_burst (hop : s.cmd.op = burstOp d) :
    answeredFail s = s.failing .partialBurstFailure s.k := by
  cases d <;> simp [answeredFail, hop, burstOp]

theorem answeredOk_burst (hop : s.cmd.op = burstOp d) (rx : List Byte) :
    answeredOk rx s = chunkAnswered d rx s := by
  cases d <;> simp [answeredOk, hop, burstOp]

theorem chunkAnswered_last (h : s.k + 1 = s.nch) : chunkAnswered d rx s =
    (chunkStored d rx s).succeeding (burstData d s.cmd.len (chunkStored d rx s)) := by
  simp [chunkAnswered, chunkStored, h]

theorem chunkAnswered_more (h : s.k + 1 ≠ s.nch) :
    chunkAnswered d rx s = (chunkStored d rx s).setPhase .issue := by
  simp [chunkAnswered, chunkStored, h]

theorem frameData_slice_congr {buf' : List Byte} (h : d = .write → buf' = buf) (off len : Nat) :
    frameData d (slice buf' off len) = frameData d (slice buf off len) := by
  cases d with
  | write => rw [h rfl]
  | read => rfl

theorem issueStep_chunk_invalid (hop : s.cmd.op = burstOp d)
    (hv : encodeHeader s.cfg s.cmd.mux s.cmd.tgt (chunkAddr s.cfg s.cmd.addr s.k) d =
      .invalidAddress) :
    issueStep s = (s.evalHeader s.cmd.mux s.cmd.tgt (chunkAddr s.cfg s.cmd.addr s.k) d).failing
      .invalidAddress 0 := by
  rw [issueStep_burst hop, startChunk, startTxn_invalid hv]

/-- *Issue* of a chunk sends, from the latches, the frame of the chunk's transaction. -/
theorem issueStep_chunk (hop : s.cmd.op = burstOp d) (hbuf : d = .write → s.wbuf = buf)
    (hv : encodeHeader s.cfg s.cmd.mux s.cmd.tgt (chunkAddr s.cfg s.cmd.addr s.k) d ≠
      .invalidAddress) :
    issueStep s =
      (s.evalHeader s.cmd.mux s.cmd.tgt (chunkAddr s.cfg s.cmd.addr s.k) d).setPhase (.waiting
        ((encodeHeader s.cfg s.cmd.mux s.cmd.tgt (chunkAddr s.cfg s.cmd.addr s.k) d).bytes ++
          frameData d (slice buf (chunkOff s.cfg s.k) (chunkLen s.cfg s.cmd.len s.k)))
        (frameRxLen d (chunkLen s.cfg s.cmd.len s.k))) := by
  rw [issueStep_burst hop, startChunk, startTxn_valid hv, frameData_slice_congr hbuf]

@[simp] theorem chunkTxn_cmd : (chunkTxn d m t a buf n s).cmd = s.cmd := rfl
@[simp] theorem chunkTxn_cfg : (chunkTxn d m t a buf n s).cfg = s.cfg := rfl
@[simp] theorem chunkTxn_k : (chunkTxn d m t a buf n s).k = s.k := rfl
@[simp] theorem chunkTxn_nch : (chunkTxn d m t a buf n s).nch = s.nch := rfl
@[simp] theorem chunkTxn_wbuf : (chunkTxn d m t a buf n s).wbuf = s.wbuf := rfl
@[simp] theorem chunkStored_cmd : (chunkStored d rx s).cmd = s.cmd := by simp [chunkStored]
@[simp] theorem chunkStored_cfg : (chunkStored d rx s).cfg = s.cfg := by simp [chunkStored]
@[simp] theorem chunkStored_k : (chunkStored d rx s).k = s.k + 1 := rfl
@[simp] theorem chunkStored_nch : (chunkStored d rx s).nch = s.nch := by simp [chunkStored]
@[simp] theorem chunkStored_wbuf : (chunkStored d rx s).wbuf = s.wbuf := by simp [chunkStored]

/-- The steps of the chunks left are the loop of the whole command (42_burst.md R144, R145). -/
theorem burstChunks_drives (hop : s.cmd.op = burstOp d) (hbuf : d = .write → s.wbuf = buf)
    (hpos : 0 < left) (hleft : s.k + left = s.nch) :
    ∃ j ≤ 2 * left + 1, Drives j (s.setPhase .issue)
      (burstChunks d s.cmd.mux s.cmd.tgt s.cmd.addr buf s.cmd.len left s) := by
  induction left generalizing s with
  | zero => cases hpos
  | succ left ih =>
    by_cases hv : encodeHeader s.cfg s.cmd.mux s.cmd.tgt (chunkAddr s.cfg s.cmd.addr s.k) d =
        .invalidAddress
    · rw [burstChunks_succ_invalid hv]
      refine ⟨2, by omega, drives_issue ?_⟩
      rw [issueStep_chunk_invalid (s := s.setPhase .issue) hop hv]
      exact drives_failing (by decide) _ 0
    · have hissue := issueStep_chunk (s := s.setPhase .issue) hop hbuf hv
      cases ha : s.env.answer (frameRxLen d (chunkLen s.cfg s.cmd.len s.k)) with
      | fail =>
        rw [burstChunks_succ_fail hv ha]
        refine ⟨3, by omega, drives_issue ?_⟩
        rw [hissue]
        apply drives_waiting
        rw [answerStep_fail (by simpa using ha), answeredFail_burst (d := d) (by simpa using hop)]
        exact drives_failing (by decide) _ s.k
      | ok rx =>
        rw [burstChunks_succ_ok hv ha]
        have hrest : ∃ j ≤ 2 * left + 1, ∀ p, Drives j
            (chunkAnswered d rx ((chunkTxn d s.cmd.mux s.cmd.tgt s.cmd.addr buf s.cmd.len
              s).setPhase p))
            (burstChunks d s.cmd.mux s.cmd.tgt s.cmd.addr buf s.cmd.len left
              (chunkStored d rx (chunkTxn d s.cmd.mux s.cmd.tgt s.cmd.addr buf s.cmd.len s))) := by
          obtain rfl | hpos := Nat.eq_zero_or_pos left
          · refine ⟨1, by omega, fun p => ?_⟩
            rw [chunkAnswered_last (by simpa using hleft)]
            simp only [chunkStored_setPhase, burstData_setPhase]
            exact drives_succeeding (by simp [hop, burstOp_isTransfer]) _
          · obtain ⟨j, hj, hdrives⟩ := ih (s := chunkStored d rx
              (chunkTxn d s.cmd.mux s.cmd.tgt s.cmd.addr buf s.cmd.len s))
              (by simpa using hop) (by simpa using hbuf) hpos (by simp; omega)
            refine ⟨j, hj, fun p => ?_⟩
            rw [chunkAnswered_more (by simp; omega)]
            simpa using hdrives
        obtain ⟨j, hj, hdrives⟩ := hrest
        refine ⟨j + 2, by omega, drives_issue ?_⟩
        rw [hissue]
        apply drives_waiting
        rw [answerStep_ok (by simpa using ha), answeredOk_burst (d := d) (by simpa using hop)]
        exact hdrives _

theorem acceptBurst_closed (ho : s.isOpen = false) (d : Direction) :
    acceptBurst d s = s.failing .notOpen 0 := by
  simp [acceptBurst, ho]

theorem acceptBurst_empty (ho : s.isOpen = true) (hn : s.cmd.len = 0) (d : Direction) :
    acceptBurst d s = s.succeeding (burstData d 0 s) := by
  simp [acceptBurst, ho, hn]

theorem acceptBurst_rejected (ho : s.isOpen = true) (hn : 0 < s.cmd.len)
    (hc : burstRejected s.cfg s.cmd.addr s.cmd.len = true) (d : Direction) :
    acceptBurst d s = (s.setNch (chunkCount s.cfg s.cmd.len)).failing .invalidAddress 0 := by
  simp [acceptBurst, ho, hn.ne', hc]

theorem acceptBurst_passed (ho : s.isOpen = true) (hn : 0 < s.cmd.len)
    (hc : burstRejected s.cfg s.cmd.addr s.cmd.len = false) (d : Direction) :
    acceptBurst d s = ((s.setNch (chunkCount s.cfg s.cmd.len)).setK 0).setPhase .issue := by
  simp [acceptBurst, ho, hn.ne', hc]

/-- *Accept* and the steps after it, from the latches, are the whole burst. -/
theorem runBurst_drives (hop : s.cmd.op = burstOp d) (hbuf : d = .write → s.wbuf = buf) :
    ∃ j ≤ 2 * chunkCount s.cfg s.cmd.len + 1, Drives j (acceptBurst d s)
      (runBurst d s.cmd.mux s.cmd.tgt s.cmd.addr buf s.cmd.len s) := by
  cases ho : s.isOpen with
  | false =>
    rw [acceptBurst_closed ho, runBurst_closed ho]
    exact ⟨1, by omega, drives_failing (by decide) s 0⟩
  | true =>
    obtain hn | hn := Nat.eq_zero_or_pos s.cmd.len
    · rw [acceptBurst_empty ho hn, hn, runBurst_empty ho]
      exact ⟨1, by omega, drives_succeeding (hop ▸ burstOp_isTransfer d) _⟩
    cases hc : burstRejected s.cfg s.cmd.addr s.cmd.len with
    | true =>
      rw [acceptBurst_rejected ho hn hc, runBurst_rejected ho hn hc]
      exact ⟨1, by omega, drives_failing (by decide) _ 0⟩
    | false =>
      rw [acceptBurst_passed ho hn hc, runBurst_passed ho hn hc]
      exact burstChunks_drives (s := (s.setNch (chunkCount s.cfg s.cmd.len)).setK 0) hop hbuf
        (chunkCount_pos hn) (by simp)

end Burst

/-! ## A session command -/

section Session

variable {s : State}

theorem openBus_drives (hb : s.busy = false) :
    ∃ w, Drives 1 (acceptOpen (s.latch .openBus)) w ∧ exec .openBus s = .next w := by
  simp only [exec, execOpenBus, State.accepting_idle hb, acceptOpen]
  split
  · exact ⟨_, drives_failing (by decide) _ 0, rfl⟩
  · split
    · exact ⟨_, drives_complete _ _, rfl⟩
    · exact ⟨_, drives_failing (by decide) _ 0, rfl⟩

theorem exec_closeBus_open (hb : s.busy = false) (ho : s.isOpen = true) :
    exec .closeBus s = .next (((s.latch .closeBus).setOpen false).respond .absent) := by
  simp [exec, execCloseBus, State.accepting_idle hb, ho]

theorem closeBus_drives (hb : s.busy = false) (ho : s.isOpen = true) :
    ∃ w, Drives 1 ((s.latch .closeBus).succeeding .absent) w ∧ exec .closeBus s = .next w :=
  ⟨_, drives_complete _ _, exec_closeBus_open hb ho⟩

theorem exec_closeBus_closed (hb : s.busy = false) (ho : s.isOpen = false) :
    exec .closeBus s = .fault .closeWhileClosed := by
  simp [exec, execCloseBus, State.accepting_idle hb, ho]

end Session

/-! ## *Accept* and the steps after it -/

/-- What *Accept* begins the steps finish: the same fault, or the state the whole command gives (10_state.md R43). -/
theorem acceptStep_drives {s : State} (hb : s.busy = false) (i : Instr) :
    (∃ f, acceptStep i s = .fault f ∧ exec i s = .fault f) ∨
    ∃ n u w, n ≤ 2 * commandChunks s.cfg i + 1 ∧ acceptStep i s = .next u ∧ Drives n u w ∧
      exec i s = .next w := by
  rw [acceptStep, State.accepting_idle hb]
  cases i with
  | openBus =>
    obtain ⟨w, hdrives, hexec⟩ := openBus_drives hb
    exact .inr ⟨1, _, w, by omega, rfl, hdrives, hexec⟩
  | closeBus =>
    cases ho : s.isOpen with
    | false => exact .inl ⟨_, by simp [ho], exec_closeBus_closed hb ho⟩
    | true =>
      obtain ⟨w, hdrives, hexec⟩ := closeBus_drives hb ho
      exact .inr ⟨1, _, w, by omega, by simp [ho], hdrives, hexec⟩
  | writeByte m t a v =>
    obtain ⟨n, w, hn, hdrives, hexec⟩ := writeByte_drives hb m t a v
    exact .inr ⟨n, _, w, hn, rfl, hdrives, hexec⟩
  | readByte m t a =>
    obtain ⟨n, w, hn, hdrives, hexec⟩ := readByte_drives hb m t a
    exact .inr ⟨n, _, w, hn, rfl, hdrives, hexec⟩
  | writeBurst m t a buf =>
    obtain ⟨n, hn, hdrives⟩ := runBurst_drives (s := s.latch (.writeBurst m t a buf)) (d := .write)
      rfl fun _ => rfl
    exact .inr ⟨n, _, _, hn, rfl, hdrives, exec_writeBurst hb buf⟩
  | readBurst m t a len =>
    obtain ⟨n, hn, hdrives⟩ := runBurst_drives (s := s.latch (.readBurst m t a len)) (d := .read)
      (buf := []) rfl nofun
    exact .inr ⟨n, _, _, hn, rfl, hdrives, exec_readBurst hb len⟩
  | encodeHeaderW m t a => exact .inr ⟨0, _, _, by omega, rfl, .refl _, rfl⟩
  | encodeHeaderR m t a => exact .inr ⟨0, _, _, by omega, rfl, .refl _, rfl⟩

/-- A whole command that answers a next state is *Accept* and a run of the sequencer, so what these keep it keeps. -/
theorem exec_drives {s w : State} {i : Instr} (hb : s.busy = false) (hx : exec i s = .next w) :
    ∃ n u, acceptStep i s = .next u ∧ Drives n u w := by
  obtain ⟨f, -, hf⟩ | ⟨n, u, w', -, haccept, hdrives, hexec⟩ := acceptStep_drives hb i
  · rw [hf] at hx
    cases hx
  · obtain rfl := Host.Outcome.next.inj (hexec.symm.trans hx)
    exact ⟨n, u, haccept, hdrives⟩

/-! ## What an idle block does with its command port -/

/-- An idle block takes the operation presented by *Accept* or whole (log entry 8). -/
theorem step_presented {s : State} {w : Request} {rest : List Request} {i : Instr}
    (hb : s.busy = false) (hhost : s.host = w :: rest) (hdec : decode s.cfg.dirWrite w = .ok i) :
    step s = if s.stepwise then acceptStep i { s with host := rest }
      else exec i { s with host := rest } := by
  simp [step, hb, idleStep, State.presented, hhost, hdec, takeInstr, State.takeRequest]

/-- Settles O39: the first step is *Accept*, which faults or begins a run of the sequencer to the whole command's end. -/
theorem stepByStepAgreesWithWhole : Obligations.StepByStepAgreesWithWhole := by
  unfold Obligations.StepByStepAgreesWithWhole
  intro s w rest i hb hstepwise hhost hdec
  have hstep := step_presented hb hhost hdec
  rw [if_pos hstepwise] at hstep
  obtain ⟨f, haccept, hexec⟩ | ⟨n, u, w, hn, haccept, hdrives, hexec⟩ :=
    acceptStep_drives (s := { s with host := rest }) hb i
  · exact ⟨1, le_rfl, by omega, (run_fault (hstep.trans haccept) 0).trans hexec.symm⟩
  · refine ⟨n + 1, by omega, Nat.succ_le_succ hn, ?_⟩
    exact (run_next (hstep.trans haccept) n).trans (hdrives.run.trans hexec.symm)

/-- Settles O33: the reading of one step a command. -/
theorem stepRunsPresentedOperation : Obligations.StepRunsPresentedOperation := by
  unfold Obligations.StepRunsPresentedOperation
  intro s w rest i hb hwhole hhost hdec
  rw [step_presented hb hhost hdec, if_neg (by simp [hwhole])]

/-- Settles O34: the reading by *Accept*, the block that waits, and the code the decoder refuses. -/
theorem idleBlockAcceptsWaitsOrRefuses : Obligations.IdleBlockAcceptsWaitsOrRefuses := by
  unfold Obligations.IdleBlockAcceptsWaitsOrRefuses
  refine ⟨fun s w rest i hb hstepwise hhost hdec => ?_, fun s hb hhost => ?_,
    fun s r rest hb hhost hop => ?_⟩
  · rw [step_presented hb hhost hdec, if_pos hstepwise]
  · simp [step, hb, idleStep, State.presented, hhost]
  · have hdec : decode s.cfg.dirWrite (.command r) = .error (.reservedOp r.op) := by
      rw [decode, decodeCommand]
      split
      case h_7 => rfl
      all_goals omega
    simp [step, hb, idleStep, State.presented, hhost, hdec]

end Sys2Proof.Machine
end

section
/-! The invariant of the machine (10_state.md R41): the frames of the transfer in progress are legal, and *Accept*, *Issue*,
*Answer* and *Complete* keep the invariant, one after the other; the statements `StepKeepsInv`, `ResetMeetsInv` and
`CommandInProgressCompletes`. -/

namespace Sys2Proof.Machine

variable {s u : State} {es : List TraceEntry} {d : Direction} {tx rx : List Byte} {n : Nat}

/-! ## What the invariant says besides the place of the sequencer -/

/-- `u` has given the responses of `s` and its status registers, and has added the transactions `es` to the trace. -/
structure Extended (s u : State) (es : List TraceEntry) : Prop where
  cfg : u.cfg = s.cfg
  trace : u.trace = s.trace ++ es
  responses : u.responses = s.responses
  lastStatus : u.lastStatus = s.lastStatus
  chunksOk : u.chunksOk = s.chunksOk

theorem Inv.extend (h : Inv s) (hu : Extended s u es) (hes : ∀ e ∈ es, e.wf s.cfg)
    (hphase : PhaseOk u) : Inv u where
  trace_wf := by
    rw [hu.trace, hu.cfg]
    exact List.forall_mem_append.2 ⟨h.trace_wf, hes⟩
  responses_wf := hu.responses ▸ h.responses_wf
  status_eq := by
    rw [hu.responses, hu.lastStatus, hu.chunksOk]
    exact h.status_eq
  count_only := by
    rw [hu.lastStatus, hu.chunksOk]
    exact h.count_only
  phase_ok := hphase

/-- Most steps issue no transaction and give no response: they move the sequencer. -/
theorem Extended.silent (hcfg : u.cfg = s.cfg) (htrace : u.trace = s.trace)
    (hresponses : u.responses = s.responses) (hstatus : u.lastStatus = s.lastStatus)
    (hcount : u.chunksOk = s.chunksOk) : Extended s u [] :=
  ⟨hcfg, by rw [htrace, List.append_nil], hresponses, hstatus, hcount⟩

theorem Inv.move (h : Inv s) (hphase : PhaseOk u)
    (hu : Extended s u [] := by exact .silent rfl rfl rfl rfl rfl) : Inv u :=
  h.extend hu nofun hphase

/-- A legal response that the status registers repeat ends a command within the invariant. -/
theorem Inv.finish (h : Inv s) (hu : Extended s u []) {r : Response} (hr : r.wf) :
    Inv (u.finish r) where
  trace_wf := by
    rw [State.finish_trace, State.finish_cfg, hu.trace, hu.cfg, List.append_nil]
    exact h.trace_wf
  responses_wf := by
    rw [State.finish_responses, hu.responses]
    exact List.forall_mem_append.2 ⟨h.responses_wf, by simpa using hr⟩
  status_eq := by simp
  count_only := by simpa using hr.2
  phase_ok := by simp [PhaseOk]

theorem phaseOk_idle (h : s.busy = false) : PhaseOk s := by
  simp [PhaseOk, State.busy_eq_false_iff.1 h]

/-! ## Legal frames (20_memory.md R56, R58) -/

theorem frameWf_write {cfg : Params} {m t : Byte} {x : Nat} {data : List Byte}
    (hv : encodeHeader cfg m t x .write ≠ .invalidAddress) (hpos : 0 < data.length)
    (hle : data.length ≤ cfg.chunkMax) :
    frameWf cfg ((encodeHeader cfg m t x .write).bytes ++ data) 0 :=
  .inl ⟨m, t, _, data, by rw [encodeHeader_eq_header hv]; rfl, byte2Dir_headerByte2 .., rfl, hpos,
    hle⟩

theorem frameWf_read {cfg : Params} {m t : Byte} {x : Nat}
    (hv : encodeHeader cfg m t x .read ≠ .invalidAddress) (hpos : 0 < n) (hle : n ≤ cfg.chunkMax) :
    frameWf cfg (encodeHeader cfg m t x .read).bytes n :=
  .inr ⟨m, t, _, by rw [encodeHeader_eq_header hv]; rfl, byte2Dir_headerByte2 .., hpos, hle⟩

/-- The frame of either direction, as *Issue* puts it together. -/
theorem frameWf_frame {cfg : Params} {m t : Byte} {x : Nat} {data : List Byte}
    (hv : encodeHeader cfg m t x d ≠ .invalidAddress) (hdata : d = .write → data.length = n)
    (hpos : 0 < n) (hle : n ≤ cfg.chunkMax) :
    frameWf cfg ((encodeHeader cfg m t x d).bytes ++ frameData d data) (frameRxLen d n) := by
  cases d with
  | write => exact frameWf_write hv (hdata rfl ▸ hpos) (hdata rfl ▸ hle)
  | read =>
    rw [frameData, List.append_nil]
    exact frameWf_read hv hpos hle

/-! ## A transfer in progress -/

/-- A transfer in progress is a single-byte transfer with a valid header or a burst with chunks left. -/
theorem transferInProgress_iff : TransferInProgress s ↔ s.isOpen = true ∧
    ∃ d, (s.cmd.op = singleOp d ∧
        encodeHeader s.cfg s.cmd.mux s.cmd.tgt s.cmd.addr.toNat d ≠ .invalidAddress) ∨
      (s.cmd.op = burstOp d ∧ BurstInProgress s) := by
  rw [TransferInProgress]
  refine and_congr_right fun _ => ⟨fun h => ?_, ?_⟩
  · split at h
    · cases h
    · cases h
    next hop => exact ⟨.write, .inl ⟨hop, h⟩⟩
    next hop => exact ⟨.read, .inl ⟨hop, h⟩⟩
    next hop => exact ⟨.write, .inr ⟨hop, h⟩⟩
    next hop => exact ⟨.read, .inr ⟨hop, h⟩⟩
  · rintro ⟨d, ⟨hop, h⟩ | ⟨hop, h⟩⟩ <;> rw [hop] <;> cases d <;> exact h

theorem currentFrame_single (hop : s.cmd.op = singleOp d) : currentFrame s =
    ((encodeHeader s.cfg s.cmd.mux s.cmd.tgt s.cmd.addr.toNat d).bytes ++ frameData d [s.cmd.val],
      frameRxLen d 1) := by
  cases d <;> simp [currentFrame, hop, singleOp, frameData, frameRxLen]

theorem currentFrame_burst (hop : s.cmd.op = burstOp d) : currentFrame s =
    ((encodeHeader s.cfg s.cmd.mux s.cmd.tgt (chunkAddr s.cfg s.cmd.addr s.k) d).bytes ++
        frameData d (slice s.wbuf (chunkOff s.cfg s.k) (chunkLen s.cfg s.cmd.len s.k)),
      frameRxLen d (chunkLen s.cfg s.cmd.len s.k)) := by
  cases d <;> simp [currentFrame, hop, burstOp, frameData, frameRxLen]

theorem bytesMoved_write_iff (hop : s.cmd.op = .writeBurst) : BytesMoved s es ↔
    s.wbuf.length = s.cmd.len ∧
      es.flatMap TraceEntry.data = s.wbuf.take (chunkOff s.cfg s.k) := by
  rw [BytesMoved, hop]

theorem bytesMoved_read_iff (hop : s.cmd.op = .readBurst) : BytesMoved s es ↔
    es.flatMap (fun e => e.answer.received) = s.rbuf.take (chunkOff s.cfg s.k) ∧
      (s.rbuf.take (chunkOff s.cfg s.k)).length = min (chunkOff s.cfg s.k) s.cmd.len ∧
      (0 < s.k → s.rbuf.length ≤ chunkOff s.cfg s.k) := by
  rw [BytesMoved, hop]

namespace BurstChecked

/-- The chunk next is one of the burst. -/
theorem lt_chunkCount (h : BurstChecked s es) (hk : s.k < s.nch) :
    s.k < chunkCount s.cfg s.cmd.len :=
  h.nch_eq ▸ hk

theorem header_valid (h : BurstChecked s es) (hk : s.k < s.nch) (m t : Byte) (d : Direction) :
    encodeHeader s.cfg m t (chunkAddr s.cfg s.cmd.addr s.k) d ≠ .invalidAddress :=
  chunk_header_valid h.checked (h.lt_chunkCount hk) m t d

theorem wbuf_length (h : BurstChecked s es) (hop : s.cmd.op = .writeBurst) :
    s.wbuf.length = s.cmd.len := by
  obtain ⟨hlen, -⟩ := (bytesMoved_write_iff hop).1 h.moved
  exact hlen

/-- What a checked burst has moved reads neither the place of the sequencer nor the trace. -/
theorem moveSequencer (h : BurstChecked s es) (x : HeaderOut) (p : Phase) :
    BurstChecked { s with hdr := x, phase := p } es := { h with }

theorem busTxn (h : BurstChecked s es) (tx : List Byte) (n : Nat) :
    BurstChecked (s.busTxn tx n) es := { h with }

theorem setPhase (h : BurstChecked s es) (p : Phase) : BurstChecked (s.setPhase p) es := { h with }

end BurstChecked

/-- The next transaction of a transfer in progress is legal. -/
theorem currentFrame_wf (h : TransferInProgress s) :
    frameWf s.cfg (currentFrame s).1 (currentFrame s).2 := by
  obtain ⟨-, d, ⟨hop, hv⟩ | ⟨hop, hk, -, es, -, hchecked⟩⟩ := transferInProgress_iff.1 h
  · rw [currentFrame_single hop]
    exact frameWf_frame hv (fun _ => rfl) Nat.one_pos s.cfg.chunkMax_pos
  · have hlt := hchecked.lt_chunkCount hk
    rw [currentFrame_burst hop]
    refine frameWf_frame (hchecked.header_valid hk _ _ d) (fun hd => slice_length ?_)
      (chunkLen_pos hlt) (chunkLen_le ..)
    rw [hchecked.wbuf_length (by rw [hop, hd]; rfl)]
    exact chunkOff_add_len_le hlt

/-! ## Step 2, *Issue* -/

/-- *Issue* sends the frame of the transfer in progress. -/
theorem issueStep_eq (h : TransferInProgress s) : ∃ x, issueStep s =
    { s with hdr := x, phase := .waiting (currentFrame s).1 (currentFrame s).2 } := by
  obtain ⟨-, d, ⟨hop, hv⟩ | ⟨hop, hk, -, es, -, hchecked⟩⟩ := transferInProgress_iff.1 h
  · rw [currentFrame_single hop, issueStep_single hop hv]
    exact ⟨_, rfl⟩
  · rw [currentFrame_burst hop,
      issueStep_chunk hop (fun _ => rfl) (hchecked.header_valid hk _ _ d)]
    exact ⟨_, rfl⟩

theorem TransferInProgress.moveSequencer (h : TransferInProgress s) (x : HeaderOut) (p : Phase) :
    TransferInProgress { s with hdr := x, phase := p } := by
  obtain ⟨ho, d, h | ⟨hop, hk, pre, es, htrace, hchecked⟩⟩ := transferInProgress_iff.1 h
  · exact transferInProgress_iff.2 ⟨ho, d, .inl h⟩
  · exact transferInProgress_iff.2
      ⟨ho, d, .inr ⟨hop, hk, pre, es, htrace, hchecked.moveSequencer x p⟩⟩

theorem issueStep_keepsInv (h : Inv s) (hT : TransferInProgress s) : Inv (issueStep s) := by
  obtain ⟨x, hissue⟩ := issueStep_eq hT
  rw [hissue]
  exact h.move ⟨hT.moveSequencer .., rfl⟩

/-! ## Step 3, *Answer*, of a single-byte transfer -/

theorem answeredOk_writeByte (hop : s.cmd.op = .writeByte) :
    answeredOk rx s = s.succeeding .absent := by
  simp [answeredOk, hop]

theorem answeredOk_readByte (hop : s.cmd.op = .readByte) (b : Byte) :
    answeredOk [b] s = (s.setRdata b).succeeding (.byte b) := by
  simp [answeredOk, hop]

/-- The entry of a legal transaction is legal, whatever the environment answers. -/
theorem entry_wf {cfg : Params} (h : frameWf cfg tx n) (e : Env) :
    TraceEntry.wf cfg { tx := tx, rxLen := n, answer := e.answer n } :=
  ⟨h, fun _ => Env.answer_length⟩

theorem phaseOk_single_fail (hop : s.cmd.op = singleOp d) (ho : s.isOpen = true)
    (hf : s.env.answer n = .fail) : PhaseOk (answerStep tx n s) := by
  rw [answerStep_fail hf, answeredFail_single (d := d) (by exact hop)]
  refine ⟨errorResponse_wf .busIoError 0, ?_, ho, s.trace, _, rfl, hf⟩
  cases d with
  | write => exact .inl hop
  | read => exact .inr hop

theorem phaseOk_writeByte_ok (hop : s.cmd.op = .writeByte) (ho : s.isOpen = true)
    (hk : s.env.answer n = .ok []) : PhaseOk (answerStep tx n s) := by
  rw [answerStep_ok hk, answeredOk_writeByte (by exact hop)]
  refine ⟨okResponse_wf .absent, ?_⟩
  simp only [OkFits, State.succeeding_cmd, State.busTxn_cmd, hop]
  exact ⟨trivial, ho, s.trace, _, rfl, hk⟩

theorem phaseOk_readByte_ok {b : Byte} (hop : s.cmd.op = .readByte) (ho : s.isOpen = true)
    (hk : s.env.answer n = .ok [b]) : PhaseOk (answerStep tx n s) := by
  rw [answerStep_ok hk, answeredOk_readByte (by exact hop)]
  refine ⟨okResponse_wf (.byte b), ?_⟩
  simp only [OkFits, State.succeeding_cmd, State.setRdata_cmd, State.busTxn_cmd, hop]
  exact ⟨rfl, ho, s.trace, _, rfl, hk⟩

theorem phaseOk_single (hop : s.cmd.op = singleOp d) (ho : s.isOpen = true) :
    PhaseOk (answerStep tx (frameRxLen d 1) s) := by
  cases d with
  | write =>
    obtain hf | hk := Env.answer_zero s.env
    · exact phaseOk_single_fail hop ho hf
    · exact phaseOk_writeByte_ok hop ho hk
  | read =>
    obtain hf | ⟨b, hk⟩ := Env.answer_one s.env
    · exact phaseOk_single_fail hop ho hf
    · exact phaseOk_readByte_ok hop ho hk

/-! ## Step 3, *Answer*, of a burst -/

/-- A buffer's bytes below the next chunk's offset are those below the chunk's and its own. -/
theorem take_chunkOff_succ {cfg : Params} {buf : List Byte} {k : Nat}
    (hk : k < chunkCount cfg buf.length) :
    buf.take (chunkOff cfg k) ++ slice buf (chunkOff cfg k) (chunkLen cfg buf.length k) =
      buf.take (chunkOff cfg (k + 1)) := by
  have h := flatMap_slices cfg buf (k + 1) hk
  rwa [List.range_succ, List.flatMap_append, flatMap_slices cfg buf k hk.le,
    List.flatMap_singleton] at h

theorem bytesMoved_chunkStored_write {e : TraceEntry} (h : BurstChecked s es)
    (hop : s.cmd.op = .writeBurst) (hk : s.k < s.nch)
    (hdata : e.data = slice s.wbuf (chunkOff s.cfg s.k) (chunkLen s.cfg s.cmd.len s.k)) :
    BytesMoved (chunkStored .write rx s) (es ++ [e]) := by
  obtain ⟨hlen, hmoved⟩ := (bytesMoved_write_iff hop).1 h.moved
  refine (bytesMoved_write_iff (by exact hop)).2 ⟨hlen, ?_⟩
  have hlt := h.lt_chunkCount hk
  rw [← hlen] at hlt hdata
  rw [List.flatMap_append, hmoved, List.flatMap_singleton, hdata]
  exact take_chunkOff_succ hlt

theorem bytesMoved_chunkStored_read {e : TraceEntry} (h : BurstChecked s es)
    (hop : s.cmd.op = .readBurst) (hk : s.k < s.nch) (hans : e.answer = .ok rx)
    (hrx : rx.length = chunkLen s.cfg s.cmd.len s.k) :
    BytesMoved (chunkStored .read rx s) (es ++ [e]) := by
  obtain ⟨hmoved, hlen, -⟩ := (bytesMoved_read_iff hop).1 h.moved
  have hoff := lt_chunkCount_iff.1 (h.lt_chunkCount hk)
  have hstored : (s.rbuf.take (chunkOff s.cfg s.k) ++ rx).length =
      min (chunkOff s.cfg (s.k + 1)) s.cmd.len := by
    rw [List.length_append, hlen, hrx, Nat.min_eq_left hoff.le,
      chunkOff_add_len (h.lt_chunkCount hk)]
  have hle : (s.rbuf.take (chunkOff s.cfg s.k) ++ rx).length ≤ chunkOff s.cfg (s.k + 1) :=
    hstored ▸ Nat.min_le_left _ _
  have htake := List.take_of_length_le hle
  refine (bytesMoved_read_iff (by exact hop)).2
    ⟨?_, (congrArg List.length htake).trans hstored, fun _ => hle⟩
  rw [List.flatMap_append, hmoved, List.flatMap_singleton, hans]
  exact htake.symm

/-- The bytes moved grow by those of the chunk answered `Ok` (10_state.md R41 c). -/
theorem BurstChecked.chunkStored {e : TraceEntry} (h : BurstChecked s es)
    (hop : s.cmd.op = burstOp d) (hk : s.k < s.nch) (hans : e.answer = .ok rx)
    (hrx : rx.length = frameRxLen d (chunkLen s.cfg s.cmd.len s.k))
    (hdata : e.data =
      frameData d (slice s.wbuf (chunkOff s.cfg s.k) (chunkLen s.cfg s.cmd.len s.k))) :
    BurstChecked (chunkStored d rx s) (es ++ [e]) where
  is_open := by simpa [Machine.chunkStored] using h.is_open
  len_pos := by simpa using h.len_pos
  nch_eq := by simpa using h.nch_eq
  k_le := by simpa using hk
  checked := by simpa using h.checked
  count := by simp [h.count]
  answered := List.forall_mem_append.2 ⟨h.answered, by simp [hans, BusAnswer.isOk]⟩
  moved := by
    cases d with
    | write => exact bytesMoved_chunkStored_write h hop hk hdata
    | read => exact bytesMoved_chunkStored_read h hop hk hans hrx

/-- All bytes of a read that is done are stored. -/
theorem BurstDone.rbuf_length (h : BurstDone s) (hop : s.cmd.op = .readBurst) :
    (s.rbuf.take s.cmd.len).length = s.cmd.len := by
  obtain ⟨hk, -, es, -, hchecked⟩ := h
  obtain ⟨-, hlen, -⟩ := (bytesMoved_read_iff hop).1 hchecked.moved
  have hall := le_chunkOff_chunkCount s.cfg s.cmd.len
  rw [← hchecked.nch_eq, ← hk] at hall
  rw [List.length_take] at hlen ⊢
  omega

/-- What a burst that answers `Ok` has to deliver. -/
theorem okFits_burst {data : RespData} (hop : s.cmd.op = burstOp d) (ho : s.isOpen = true)
    (hdata : data = burstData d s.cmd.len s)
    (hlen : d = .read → (s.rbuf.take s.cmd.len).length = s.cmd.len)
    (hdone : 0 < s.cmd.len → BurstDone s) : OkFits s data := by
  rw [OkFits, hop, hdata]
  cases d with
  | write => exact ⟨rfl, ho, hdone⟩
  | read => exact ⟨rfl, hlen rfl, ho, hdone⟩

theorem phaseOk_burst_fail (hop : s.cmd.op = burstOp d) (h : BurstInProgress s)
    (hf : s.env.answer n = .fail) : PhaseOk (answerStep tx n s) := by
  obtain ⟨hk, pre, es, htrace, hchecked⟩ := h
  rw [answerStep_fail hf, answeredFail_burst (d := d) (by exact hop)]
  exact ⟨errorResponse_wf .partialBurstFailure _,
    ⟨hk, pre, es, { tx := tx, rxLen := n, answer := s.env.answer n }, by simp [htrace], hf,
      (hchecked.busTxn tx n).setPhase _⟩, rfl⟩

/-- The chunk in flight, answered `Ok`, joins the chunks that end the trace. -/
theorem BurstInProgress.answered (hop : s.cmd.op = burstOp d) (h : BurstInProgress s)
    (hframe : (tx, n) = currentFrame s) (hok : s.env.answer n = .ok rx) :
    ∃ pre es, (chunkStored d rx (s.busTxn tx n)).trace = pre ++ es ∧
      BurstChecked (chunkStored d rx (s.busTxn tx n)) es := by
  obtain ⟨hk, pre, es, htrace, hchecked⟩ := h
  obtain ⟨htx, hn⟩ := Prod.mk.inj (hframe.trans (currentFrame_burst hop))
  have hheader := HeaderOut.bytes_length (hchecked.header_valid hk s.cmd.mux s.cmd.tgt d)
  refine ⟨pre, es ++ [{ tx := tx, rxLen := n, answer := s.env.answer n }], ?_,
    (hchecked.busTxn tx n).chunkStored hop hk hok (hn ▸ Env.answer_length hok) ?_⟩
  · simp [chunkStored, htrace]
  · simp [TraceEntry.data, htx, hheader]

/-- A chunk answered `Ok` leaves a burst that is done, or one with chunks left. -/
theorem phaseOk_burst_ok (hop : s.cmd.op = burstOp d) (h : BurstInProgress s)
    (hframe : (tx, n) = currentFrame s) (hok : s.env.answer n = .ok rx) :
    PhaseOk (answerStep tx n s) := by
  obtain ⟨pre, es, htrace, hchecked⟩ := h.answered hop hframe hok
  have hop' : (chunkStored d rx (s.busTxn tx n)).cmd.op = burstOp d := by simpa using hop
  rw [answerStep_ok hok, answeredOk_burst (d := d) (by exact hop)]
  by_cases hlast : s.k + 1 = s.nch
  · rw [chunkAnswered_last (by exact hlast)]
    have hdone (data : RespData) :
        BurstDone ((chunkStored d rx (s.busTxn tx n)).succeeding data) :=
      ⟨by simpa using hlast, pre, es, htrace, hchecked.setPhase _⟩
    refine ⟨okResponse_wf _, okFits_burst hop' hchecked.is_open ?_ (fun hd => ?_)
      fun _ => hdone _⟩
    · simp [State.succeeding, State.complete]
    · exact (hdone .absent).rbuf_length (by subst hd; exact hop')
  · rw [chunkAnswered_more (by exact hlast)]
    have hk := hchecked.k_le
    refine transferInProgress_iff.2 ⟨hchecked.is_open, d, .inr ⟨hop', ?_, pre, es, htrace,
      hchecked.setPhase _⟩⟩
    simp at hk ⊢
    omega

theorem chunkAnswered_status (d : Direction) (rx : List Byte) (s : State) :
    (chunkAnswered d rx s).lastStatus = s.lastStatus ∧
      (chunkAnswered d rx s).chunksOk = s.chunksOk := by
  simp only [chunkAnswered]
  split <;> cases d <;> exact ⟨rfl, rfl⟩

theorem answerStep_status (tx : List Byte) (n : Nat) (s : State) :
    (answerStep tx n s).lastStatus = s.lastStatus ∧
      (answerStep tx n s).chunksOk = s.chunksOk := by
  unfold answerStep
  split
  · unfold answeredFail
    split <;> exact ⟨rfl, rfl⟩
  · unfold answeredOk
    split
    case h_5 | h_6 => exact chunkAnswered_status ..
    all_goals exact ⟨rfl, rfl⟩

theorem answerStep_extended (tx : List Byte) (n : Nat) (s : State) :
    Extended s (answerStep tx n s) [{ tx := tx, rxLen := n, answer := s.env.answer n }] := by
  obtain ⟨hsame, htrace⟩ := answerStep_same tx n s
  obtain ⟨hstatus, hcount⟩ := answerStep_status tx n s
  exact ⟨hsame.cfg, htrace, hsame.responses, hstatus, hcount⟩

theorem answerStep_keepsInv (h : Inv s) (hT : TransferInProgress s)
    (hframe : (tx, n) = currentFrame s) : Inv (answerStep tx n s) := by
  have hwf := currentFrame_wf hT
  rw [← hframe] at hwf
  refine h.extend (answerStep_extended tx n s) (by simpa using entry_wf hwf s.env) ?_
  obtain ⟨ho, d, ⟨hop, -⟩ | ⟨hop, hburst⟩⟩ := transferInProgress_iff.1 hT
  · obtain ⟨rfl, rfl⟩ := Prod.mk.inj (hframe.trans (currentFrame_single hop))
    exact phaseOk_single hop ho
  · cases hans : s.env.answer n with
    | fail => exact phaseOk_burst_fail hop hburst hans
    | ok rx => exact phaseOk_burst_ok hop hburst hframe hans

/-! ## Step 4, *Complete* -/

theorem completeStep_keepsInv (h : Inv s) {r : Response} (hr : r.wf) : Inv (completeStep r s) := by
  rw [completeStep, sessionEffect_eq]
  exact h.finish (u := s.setOpen (sessionEffect r s).isOpen) (.silent rfl rfl rfl rfl rfl) hr

theorem sequencerStep_keepsInv (h : Inv s) : Inv (sequencerStep s) := by
  have hphase := h.phase_ok
  unfold PhaseOk at hphase
  unfold sequencerStep
  cases hp : s.phase with
  | idle => exact h
  | issue =>
    rw [hp] at hphase
    exact issueStep_keepsInv h hphase
  | waiting tx n =>
    rw [hp] at hphase
    obtain ⟨hT, hframe⟩ := hphase
    exact answerStep_keepsInv h hT hframe
  | completing r =>
    rw [hp] at hphase
    obtain ⟨hr, -⟩ := hphase
    exact completeStep_keepsInv h hr

/-! ## Step 1, *Accept* -/

/-- Latching operands leaves an idle block idle, with the same trace and responses. -/
theorem Inv.latch (h : Inv s) (hb : s.busy = false) (i : Instr) : Inv (s.latch i) :=
  h.move (phaseOk_idle (by simpa [State.busy] using hb)) (by constructor <;> simp)

/-- A command whose checks end it with `Ok` is about to be completed with it. -/
theorem Inv.succeeding (h : Inv s) {data : RespData} (hfits : OkFits (u.succeeding data) data)
    (hu : Extended s (u.succeeding data) [] := by exact .silent rfl rfl rfl rfl rfl) :
    Inv (u.succeeding data) :=
  h.move ⟨okResponse_wf data, hfits⟩ hu

theorem acceptOpen_keepsInv (h : Inv s) (hop : s.cmd.op = .openBus) : Inv (acceptOpen s) := by
  unfold acceptOpen
  split
  · exact h.move ⟨errorResponse_wf .., hop⟩
  next hclosed =>
    split
    · refine h.succeeding ?_
      simp only [OkFits, State.succeeding_cmd, State.drawAvail_cmd, hop]
      exact ⟨trivial, Bool.eq_false_iff.2 hclosed⟩
    · exact h.move ⟨errorResponse_wf .., hop⟩

theorem singleOp_isTransfer (d : Direction) : (singleOp d).isTransfer = true := by
  cases d <;> rfl

theorem acceptSingle_keepsInv (h : Inv s) (hop : s.cmd.op = singleOp d) :
    Inv (acceptSingle d s) := by
  have htransfer : s.cmd.op.isTransfer = true := hop ▸ singleOp_isTransfer d
  cases ho : s.isOpen with
  | false =>
    rw [acceptSingle_closed ho]
    exact h.move ⟨errorResponse_wf .., htransfer, ho⟩
  | true =>
    by_cases hv : encodeHeader s.cfg s.cmd.mux s.cmd.tgt s.cmd.addr.toNat d = .invalidAddress
    · rw [acceptSingle_rejected ho hv]
      exact h.move ⟨errorResponse_wf .., htransfer, ho⟩
    · rw [acceptSingle_passed ho hv]
      exact h.move (transferInProgress_iff.2 ⟨ho, d, .inl ⟨hop, hv⟩⟩)

/-- Before its first chunk a burst has moved nothing. -/
theorem bytesMoved_nil (hop : s.cmd.op = burstOp d) (hk : s.k = 0)
    (hbuf : d = .write → s.wbuf.length = s.cmd.len) : BytesMoved s [] := by
  cases d with
  | write => exact (bytesMoved_write_iff hop).2 ⟨hbuf rfl, by simp [hk, chunkOff]⟩
  | read => exact (bytesMoved_read_iff hop).2 (by simp [hk, chunkOff])

theorem acceptBurst_keepsInv (h : Inv s) (hop : s.cmd.op = burstOp d)
    (hbuf : d = .write → s.wbuf.length = s.cmd.len) : Inv (acceptBurst d s) := by
  have htransfer : s.cmd.op.isTransfer = true := hop ▸ burstOp_isTransfer d
  cases ho : s.isOpen with
  | false =>
    rw [acceptBurst_closed ho]
    exact h.move ⟨errorResponse_wf .., htransfer, ho⟩
  | true =>
    obtain hn | hn := Nat.eq_zero_or_pos s.cmd.len
    · rw [acceptBurst_empty ho hn]
      refine h.succeeding (okFits_burst hop ho ?_ ?_ ?_)
      · simp [State.succeeding, State.complete, hn]
      · simp [hn]
      · simp [hn]
    cases hc : burstRejected s.cfg s.cmd.addr s.cmd.len with
    | true =>
      rw [acceptBurst_rejected ho hn hc]
      exact h.move ⟨errorResponse_wf .., htransfer, ho⟩
    | false =>
      rw [acceptBurst_passed ho hn hc]
      refine h.move (transferInProgress_iff.2
        ⟨ho, d, .inr ⟨hop, chunkCount_pos hn, s.trace, [], by simp, ?_⟩⟩)
      exact {
        is_open := ho, len_pos := hn, nch_eq := rfl, k_le := Nat.zero_le _, checked := hc
        count := rfl, answered := nofun, moved := bytesMoved_nil hop rfl hbuf }

theorem acceptStep_keepsInv (h : Inv s) (hb : s.busy = false) {i : Instr}
    (hx : acceptStep i s = .next u) : Inv u := by
  have hlatch := h.latch hb i
  rw [acceptStep, State.accepting_idle hb] at hx
  cases i with
  | openBus => cases hx; exact acceptOpen_keepsInv hlatch rfl
  | closeBus =>
    cases ho : s.isOpen with
    | false => simp [ho] at hx
    | true =>
      obtain rfl : (s.latch .closeBus).succeeding .absent = u := by simpa [ho] using hx
      exact hlatch.succeeding ⟨rfl, ho⟩
  | writeByte => cases hx; exact acceptSingle_keepsInv (d := .write) hlatch rfl
  | readByte => cases hx; exact acceptSingle_keepsInv (d := .read) hlatch rfl
  | writeBurst => cases hx; exact acceptBurst_keepsInv (d := .write) hlatch rfl fun _ => rfl
  | readBurst => cases hx; exact acceptBurst_keepsInv (d := .read) hlatch rfl nofun
  | encodeHeaderW | encodeHeaderR =>
    cases hx
    exact h.move (phaseOk_idle hb)

/-! ## The statements -/

/-- A whole command keeps the invariant, for it is *Accept* and a run of the sequencer. -/
theorem exec_keepsInv (h : Inv s) (hb : s.busy = false) {i : Instr} (hx : exec i s = .next u) :
    Inv u := by
  obtain ⟨n, w, haccept, hdrives⟩ := exec_drives hb hx
  exact hdrives.keeps (P := Inv) (fun _ _ => sequencerStep_keepsInv)
    (acceptStep_keepsInv h hb haccept)

/-- Settles O36: a busy block goes on with its command, an idle one waits or takes the request presented. -/
theorem stepKeepsInv : Obligations.StepKeepsInv := by
  unfold Obligations.StepKeepsInv
  intro s u h hstep
  obtain ⟨-, rfl⟩ | ⟨-, -, rfl⟩ | ⟨hb, w, rest, i, -, -, ⟨-, haccept⟩ | ⟨-, hexec⟩⟩ :=
    step_cases hstep
  · exact sequencerStep_keepsInv h
  · exact h
  all_goals
    have htaken : Inv s.takeRequest := h.move (phaseOk_idle hb)
  · exact acceptStep_keepsInv htaken hb haccept
  · exact exec_keepsInv htaken hb hexec

/-- Settles O2: no transaction, no response, `LAST_STATUS = Ok`, `CHUNKS_OK = 0`, idle. -/
theorem resetMeetsInv : Obligations.ResetMeetsInv where
  trace_wf := nofun
  responses_wf := nofun
  status_eq := nofun
  count_only := fun _ => rfl
  phase_ok := trivial

/-! ## A command in progress completes (70_reset_and_hazards.md R220) -/

theorem answerStep_single_completing (hop : s.cmd.op = singleOp d) (tx : List Byte) (n : Nat) :
    ∃ r, (answerStep tx n s).phase = .completing r := by
  cases hans : s.env.answer n with
  | fail =>
    rw [answerStep_fail hans, answeredFail_single (d := d) (by exact hop)]
    exact ⟨_, rfl⟩
  | ok rx =>
    rw [answerStep_ok hans]
    cases d <;> simp [answeredOk, hop, singleOp]

theorem answerStep_burst_phase (hop : s.cmd.op = burstOp d) (tx : List Byte) (n : Nat) :
    (∃ r, (answerStep tx n s).phase = .completing r) ∨
      (answerStep tx n s).phase = .issue ∧ (answerStep tx n s).k = s.k + 1 ∧
        (answerStep tx n s).nch = s.nch := by
  cases hans : s.env.answer n with
  | fail =>
    rw [answerStep_fail hans, answeredFail_burst (d := d) (by exact hop)]
    exact .inl ⟨_, rfl⟩
  | ok rx =>
    rw [answerStep_ok hans, answeredOk_burst (d := d) (by exact hop)]
    by_cases hlast : s.k + 1 = s.nch
    · rw [chunkAnswered_last (by exact hlast)]
      exact .inl ⟨_, rfl⟩
    · rw [chunkAnswered_more (by exact hlast)]
      exact .inr (by simp)

theorem stepsLeft_completing {r : Response} (hp : s.phase = .completing r) : stepsLeft s = 1 := by
  simp [stepsLeft, hp]

theorem stepsLeft_waiting_single (hop : s.cmd.op = singleOp d) (hp : s.phase = .waiting tx n) :
    stepsLeft s = 2 := by
  cases d <;> simp [stepsLeft, hp, hop, singleOp]

theorem stepsLeft_waiting_burst (hop : s.cmd.op = burstOp d) (hp : s.phase = .waiting tx n) :
    stepsLeft s = 2 * (s.nch - s.k) := by
  cases d <;> simp [stepsLeft, hp, hop, burstOp]

theorem stepsLeft_issue_burst (hop : s.cmd.op = burstOp d) (hp : s.phase = .issue) :
    stepsLeft s = 2 * (s.nch - s.k) + 1 := by
  cases d <;> simp [stepsLeft, hp, hop, burstOp]

theorem issueStep_progress (hT : TransferInProgress s) (hp : s.phase = .issue) :
    (issueStep s).busy = true ∧ stepsLeft (issueStep s) < stepsLeft s := by
  obtain ⟨x, hissue⟩ := issueStep_eq hT
  rw [hissue]
  refine ⟨rfl, ?_⟩
  simp only [stepsLeft, hp]
  exact Nat.lt_succ_self _

theorem answerStep_progress (hT : TransferInProgress s) (hp : s.phase = .waiting tx n) :
    (answerStep tx n s).busy = true ∧ stepsLeft (answerStep tx n s) < stepsLeft s := by
  obtain ⟨-, d, ⟨hop, -⟩ | ⟨hop, hk, -⟩⟩ := transferInProgress_iff.1 hT
  · obtain ⟨r, hr⟩ := answerStep_single_completing hop tx n
    rw [stepsLeft_completing hr, stepsLeft_waiting_single hop hp]
    exact ⟨by simp [State.busy, hr], by omega⟩
  · rw [stepsLeft_waiting_burst hop hp]
    obtain ⟨r, hr⟩ | ⟨hissue, hk', hnch⟩ := answerStep_burst_phase hop tx n
    · rw [stepsLeft_completing hr]
      exact ⟨by simp [State.busy, hr], by omega⟩
    · obtain ⟨hsame, -⟩ := answerStep_same tx n s
      rw [stepsLeft_issue_burst (hsame.cmd ▸ hop) hissue, hk', hnch]
      exact ⟨by simp [State.busy, hissue], by omega⟩

/-- A busy block either completes its command in this step or goes on with it, with fewer steps left. -/
theorem sequencerStep_progress (h : Inv s) (hb : s.busy = true) :
    (∃ r, s.phase = .completing r) ∨
      (sequencerStep s).busy = true ∧ SameCommand s (sequencerStep s) ∧
        stepsLeft (sequencerStep s) < stepsLeft s := by
  have hphase := h.phase_ok
  unfold PhaseOk at hphase
  unfold sequencerStep
  cases hp : s.phase with
  | idle => simp [State.busy, hp] at hb
  | issue =>
    rw [hp] at hphase
    obtain ⟨hbusy, hless⟩ := issueStep_progress hphase hp
    obtain ⟨hsame, -⟩ := issueStep_same s
    exact .inr ⟨hbusy, hsame, hless⟩
  | waiting tx n =>
    rw [hp] at hphase
    obtain ⟨hT, -⟩ := hphase
    obtain ⟨hbusy, hless⟩ := answerStep_progress hT hp
    obtain ⟨hsame, -⟩ := answerStep_same tx n s
    exact .inr ⟨hbusy, hsame, hless⟩
  | completing r => exact .inl ⟨r, rfl⟩

theorem sequencerStep_completing {r : Response} (hp : s.phase = .completing r) :
    sequencerStep s = (s.setOpen (sessionEffect r s).isOpen).finish r := by
  simp only [sequencerStep, hp, completeStep]
  rw [← sessionEffect_eq]

theorem drives_to_completion (h : Inv s) (hb : s.busy = true) :
    ∃ n u r, n ≤ stepsLeft s ∧ Drives n s u ∧ u.busy = false ∧ u.host = s.host ∧
      u.responses = s.responses ++ [r] := by
  induction hleft : stepsLeft s using Nat.strong_induction_on generalizing s with
  | _ left ih =>
    subst hleft
    obtain ⟨r, hp⟩ | ⟨hbusy, hsame, hless⟩ := sequencerStep_progress h hb
    · refine ⟨1, _, r, (stepsLeft_completing hp).ge, .step hb (.refl _), ?_⟩
      rw [sequencerStep_completing hp]
      exact ⟨by simp, by simp, by simp⟩
    · obtain ⟨n, u, r, hn, hdrives, hidle, hhost, hresp⟩ :=
        ih _ hless (sequencerStep_keepsInv h) hbusy rfl
      exact ⟨n + 1, u, r, by omega, .step hb hdrives, hidle, hhost.trans hsame.host,
        hsame.responses ▸ hresp⟩

/-- Settles O40: every step of a busy block but the last leaves fewer steps to go, and the last gives the response. -/
theorem commandInProgressCompletes : Obligations.CommandInProgressCompletes := by
  unfold Obligations.CommandInProgressCompletes
  intro s h hb
  obtain ⟨n, u, r, hn, hdrives, hdone⟩ := drives_to_completion h hb
  exact ⟨n, u, r, hn, hdrives.run, hdone⟩

end Sys2Proof.Machine
end

section
/-! What a step changes (10_state.md R20, R30, R36, R41 d; 70_reset_and_hazards.md R213, R214): the session commands case by
case, what *Accept* and the other steps of the sequencer leave alone, and the statements `BusyBlockAcceptsNothing`,
`StepOnlyAppends`, `OnlySessionOperationsMoveOpen`, `OpenOutcome`, `CloseOutcome` and `SessionFrame`. -/

namespace Sys2Proof.Machine

variable {s u : State} {i : Instr}

/-! ## The session commands (43_session.md R170, R171) -/

theorem exec_openBus_already (hb : s.busy = false) (ho : s.isOpen = true) :
    exec .openBus s = .next ((s.latch .openBus).raise .deviceUnavailable 0) := by
  simp [exec, execOpenBus, State.accepting_idle hb, ho]

theorem exec_openBus_available (hb : s.busy = false) (ho : s.isOpen = false)
    (ha : s.env.avail = true) :
    exec .openBus s = .next (((s.latch .openBus).drawAvail.setOpen true).respond .absent) := by
  simp [exec, execOpenBus, State.accepting_idle hb, ho, ha]

theorem exec_openBus_unavailable (hb : s.busy = false) (ho : s.isOpen = false)
    (ha : s.env.avail = false) :
    exec .openBus s = .next ((s.latch .openBus).drawAvail.raise .deviceUnavailable 0) := by
  simp [exec, execOpenBus, State.accepting_idle hb, ho, ha]

/-- Settles O21: the three cases, each one whole next state. -/
theorem openOutcome : Obligations.OpenOutcome := by
  unfold Obligations.OpenOutcome
  exact fun s hb => ⟨exec_openBus_already hb, exec_openBus_available hb,
    exec_openBus_unavailable hb⟩

/-- Settles O22: an open block closes, a closed one has no result. -/
theorem closeOutcome : Obligations.CloseOutcome := by
  unfold Obligations.CloseOutcome
  exact fun s hb => ⟨exec_closeBus_open hb, exec_closeBus_closed hb⟩

/-- OPEN that answers a next state answers one of the three. -/
theorem exec_openBus_cases (hb : s.busy = false) (hx : exec .openBus s = .next u) :
    u = (s.latch .openBus).raise .deviceUnavailable 0 ∨
    u = ((s.latch .openBus).drawAvail.setOpen true).respond .absent ∨
    u = (s.latch .openBus).drawAvail.raise .deviceUnavailable 0 := by
  cases ho : s.isOpen with
  | true =>
    rw [exec_openBus_already hb ho] at hx
    exact .inl (Host.Outcome.next.inj hx).symm
  | false =>
    cases ha : s.env.avail with
    | true =>
      rw [exec_openBus_available hb ho ha] at hx
      exact .inr (.inl (Host.Outcome.next.inj hx).symm)
    | false =>
      rw [exec_openBus_unavailable hb ho ha] at hx
      exact .inr (.inr (Host.Outcome.next.inj hx).symm)

/-- CLOSE that answers a next state found the block open. -/
theorem exec_closeBus_next (hb : s.busy = false) (hx : exec .closeBus s = .next u) :
    u = ((s.latch .closeBus).setOpen false).respond .absent := by
  cases ho : s.isOpen with
  | true =>
    rw [exec_closeBus_open hb ho] at hx
    exact (Host.Outcome.next.inj hx).symm
  | false =>
    rw [exec_closeBus_closed hb ho] at hx
    cases hx

/-- A command presented while the block is busy changes nothing (70_reset_and_hazards.md R213). -/
theorem exec_busy (hb : s.busy = true) (hi : i.isCommand = true) : exec i s = .next s := by
  cases i with
  | encodeHeaderW | encodeHeaderR => cases hi
  | openBus | closeBus | writeByte | readByte | writeBurst | readBurst =>
    simp only [exec, execOpenBus, execCloseBus, execWriteByte, execReadByte, execWriteBurst,
      execReadBurst, State.accepting_busy hb]

/-- Settles O32: a busy block is unchanged; else by the cases of the two commands. -/
theorem sessionFrame : Obligations.SessionFrame := by
  unfold Obligations.SessionFrame
  intro s u i hi hx
  cases hb : s.busy with
  | true =>
    obtain rfl : s = u := by
      rw [exec_busy hb (by rcases hi with rfl | rfl <;> rfl)] at hx
      exact Host.Outcome.next.inj hx
    simp
  | false =>
    have hphase := State.busy_eq_false_iff.1 hb
    obtain rfl | rfl := hi
    · obtain rfl | rfl | rfl := exec_openBus_cases hb hx <;> simp [hphase, Env.afterAvail]
    · obtain rfl := exec_closeBus_next hb hx
      simp [hphase]

/-! ## A step of a busy block -/

/-- A step of the sequencer completes the command or leaves its operands, the responses and `OPEN` alone. -/
theorem sequencerStep_cases (s : State) :
    (∃ r, sequencerStep s = (s.setOpen (sessionEffect r s).isOpen).finish r) ∨
      (SameCommand s (sequencerStep s) ∧ s.trace <+: (sequencerStep s).trace) := by
  unfold sequencerStep
  split
  · exact .inr ⟨.refl s, List.prefix_rfl⟩
  · obtain ⟨hsame, htrace⟩ := issueStep_same s
    exact .inr ⟨hsame, htrace ▸ List.prefix_rfl⟩
  · obtain ⟨hsame, htrace⟩ := answerStep_same _ _ s
    exact .inr ⟨hsame, htrace ▸ List.prefix_append ..⟩
  · exact .inl ⟨_, by rw [← sessionEffect_eq, completeStep]⟩

/-- Settles O35: neither completing nor going on touches the host's requests, the latches or `WBUF`. -/
theorem busyBlockAcceptsNothing : Obligations.BusyBlockAcceptsNothing := by
  unfold Obligations.BusyBlockAcceptsNothing
  refine fun s hb => ⟨⟨_, step_busy hb, ?_⟩, fun i => exec_busy hb⟩
  obtain ⟨r, hr⟩ | ⟨hsame, -⟩ := sequencerStep_cases s
  · rw [hr]
    exact ⟨by simp, by simp, by simp⟩
  · exact ⟨hsame.host, hsame.cmd, hsame.wbuf⟩

/-! ## What every step keeps (10_state.md R36, 20_memory.md R62, 70_reset_and_hazards.md R214) -/

/-- The configuration, the choice of the reading and the host's requests stay, and the trace only grows. -/
structure Appended (s u : State) : Prop where
  cfg : u.cfg = s.cfg
  stepwise : u.stepwise = s.stepwise
  host : u.host = s.host
  trace : s.trace <+: u.trace

theorem Appended.refl (s : State) : Appended s s := ⟨rfl, rfl, rfl, List.prefix_rfl⟩

theorem Appended.trans {w : State} (h : Appended s w) (h' : Appended w u) : Appended s u :=
  ⟨h'.cfg.trans h.cfg, h'.stepwise.trans h.stepwise, h'.host.trans h.host, h.trace.trans h'.trace⟩

theorem sequencerStep_appended (s : State) : Appended s (sequencerStep s) := by
  obtain ⟨r, hr⟩ | ⟨hsame, htrace⟩ := sequencerStep_cases s
  · rw [hr]
    exact ⟨by simp, by simp, by simp, by simp⟩
  · exact ⟨hsame.cfg, hsame.stepwise, hsame.host, htrace⟩

/-- *Accept* decides without any bus activity, response or change of `OPEN` (42_burst.md R150 step 1). -/
structure Accepted (s u : State) : Prop where
  cfg : u.cfg = s.cfg
  stepwise : u.stepwise = s.stepwise
  host : u.host = s.host
  trace : u.trace = s.trace
  responses : u.responses = s.responses
  isOpen : u.isOpen = s.isOpen

namespace Accepted

theorem of_latch (h : Accepted (s.latch i) u) : Accepted s u where
  cfg := by simpa using h.cfg
  stepwise := by simpa using h.stepwise
  host := by simpa using h.host
  trace := by simpa using h.trace
  responses := by simpa using h.responses
  isOpen := by simpa using h.isOpen

theorem appended (h : Accepted s u) : Appended s u :=
  ⟨h.cfg, h.stepwise, h.host, h.trace ▸ List.prefix_rfl⟩

end Accepted

theorem acceptOpen_accepted (s : State) : Accepted s (acceptOpen s) := by
  unfold acceptOpen
  split
  · exact ⟨rfl, rfl, rfl, rfl, rfl, rfl⟩
  · split <;> exact ⟨rfl, rfl, rfl, rfl, rfl, rfl⟩

theorem acceptSingle_accepted (d : Direction) (s : State) : Accepted s (acceptSingle d s) := by
  simp only [acceptSingle]
  split
  · split <;> exact ⟨rfl, rfl, rfl, rfl, rfl, rfl⟩
  · exact ⟨rfl, rfl, rfl, rfl, rfl, rfl⟩

theorem acceptBurst_accepted (d : Direction) (s : State) : Accepted s (acceptBurst d s) := by
  simp only [acceptBurst]
  split
  · split
    · exact ⟨rfl, rfl, rfl, rfl, rfl, rfl⟩
    · split <;> exact ⟨rfl, rfl, rfl, rfl, rfl, rfl⟩
  · exact ⟨rfl, rfl, rfl, rfl, rfl, rfl⟩

theorem acceptStep_accepted (hb : s.busy = false) (hx : acceptStep i s = .next u) :
    Accepted s u := by
  rw [acceptStep, State.accepting_idle hb] at hx
  cases i with
  | openBus => cases hx; exact (acceptOpen_accepted _).of_latch
  | closeBus =>
    cases ho : s.isOpen with
    | false => simp [ho] at hx
    | true =>
      obtain rfl : (s.latch .closeBus).succeeding .absent = u := by simpa [ho] using hx
      exact ⟨rfl, rfl, rfl, rfl, rfl, rfl⟩
  | writeByte | readByte => cases hx; exact (acceptSingle_accepted _ _).of_latch
  | writeBurst | readBurst => cases hx; exact (acceptBurst_accepted _ _).of_latch
  | encodeHeaderW | encodeHeaderR => cases hx; exact ⟨rfl, rfl, rfl, rfl, rfl, rfl⟩

theorem exec_appended (hb : s.busy = false) (hx : exec i s = .next u) : Appended s u := by
  obtain ⟨n, w, haccept, hdrives⟩ := exec_drives hb hx
  exact hdrives.keeps (P := Appended s) (fun v _ h => h.trans (sequencerStep_appended v))
    (acceptStep_accepted hb haccept).appended

/-- At most one response is added, at the end. -/
def OneResponseAtMost (s u : State) : Prop :=
  u.responses = s.responses ∨ ∃ r, u.responses = s.responses ++ [r]

theorem OneResponseAtMost.isPrefix_and_length_le (h : OneResponseAtMost s u) :
    s.responses <+: u.responses ∧ u.responses.length ≤ s.responses.length + 1 := by
  obtain h | ⟨r, h⟩ := h <;> simp [h]

theorem sequencerStep_oneResponseAtMost (s : State) : OneResponseAtMost s (sequencerStep s) := by
  obtain ⟨r, hr⟩ | ⟨hsame, -⟩ := sequencerStep_cases s
  · exact .inr ⟨r, by simp [hr]⟩
  · exact .inl hsame.responses

theorem exec_oneResponseAtMost (hb : s.busy = false) (hx : exec i s = .next u) :
    OneResponseAtMost s u := by
  cases hi : i.isCommand with
  | true =>
    obtain ⟨_, r, hdone, -⟩ := exec_reported hb hi hx
    exact .inr ⟨r, hdone.responded⟩
  | false =>
    obtain ⟨m, t, a, d, heval⟩ := exec_eq_evalHeader hi
    obtain rfl := Host.Outcome.next.inj ((heval s).symm.trans hx)
    exact .inl rfl

/-- Settles O37: the ways a step gives a next state, each of which appends. -/
theorem stepOnlyAppends : Obligations.StepOnlyAppends := by
  unfold Obligations.StepOnlyAppends
  intro s u hstep
  have hall : OneResponseAtMost s u ∧ ∃ w, (w = s ∨ w = s.takeRequest) ∧ Appended w u := by
    obtain ⟨-, rfl⟩ | ⟨-, -, rfl⟩ | ⟨hb, w, rest, i, -, -, ⟨-, haccept⟩ | ⟨-, hexec⟩⟩ :=
      step_cases hstep
    · exact ⟨sequencerStep_oneResponseAtMost s, s, .inl rfl, sequencerStep_appended s⟩
    · exact ⟨.inl rfl, _, .inl rfl, .refl _⟩
    · have h := acceptStep_accepted (s := s.takeRequest) hb haccept
      exact ⟨.inl h.responses, _, .inr rfl, h.appended⟩
    · exact ⟨exec_oneResponseAtMost (s := s.takeRequest) hb hexec, _, .inr rfl,
        exec_appended (s := s.takeRequest) hb hexec⟩
  obtain ⟨hresp, w, hw, happ⟩ := hall
  obtain ⟨hprefix, hlength⟩ := hresp.isPrefix_and_length_le
  obtain rfl | rfl := hw
  · exact ⟨happ.cfg, happ.trace, hprefix, hlength, happ.stepwise, .inl happ.host⟩
  · exact ⟨happ.cfg, happ.trace, hprefix, hlength, happ.stepwise, .inr happ.host⟩

/-! ## `OPEN` (10_state.md R30, R41 d) -/

/-- A successful OPEN or CLOSE has completed, with `OPEN` as it says, on a silent bus. -/
def SessionCompleted (s u : State) : Prop :=
  u.cmd.op = (if u.isOpen = true then .openBus else .closeBus) ∧ u.lastStatus = .ok ∧
    u.busy = false ∧ u.trace = s.trace ∧ ∃ r, u.responses = s.responses ++ [r] ∧ r.status = .ok

theorem sessionCompleted_finish {w : State} {r : Response} (hr : r.status = .ok)
    (hop : w.cmd.op = if w.isOpen = true then .openBus else .closeBus)
    (htrace : w.trace = s.trace) (hresp : w.responses = s.responses) :
    SessionCompleted s (w.finish r) :=
  ⟨by simpa using hop, by simpa using hr, by simp, by simpa using htrace,
    ⟨r, by simp [hresp], hr⟩⟩

/-- *Complete* changes `OPEN` only for a successful session command. -/
theorem sessionEffect_moves {r : Response} (h : (sessionEffect r s).isOpen ≠ s.isOpen) :
    r.status = .ok ∧
      s.cmd.op = if (sessionEffect r s).isOpen = true then .openBus else .closeBus := by
  unfold sessionEffect at h ⊢
  by_cases hr : r.status = .ok
  · simp only [hr, if_true] at h ⊢
    cases hop : s.cmd.op <;> simp [hop] at h ⊢
  · simp [hr] at h

theorem sequencerStep_moves_open (h : (sequencerStep s).isOpen ≠ s.isOpen) :
    SessionCompleted s (sequencerStep s) := by
  obtain ⟨r, hr⟩ | ⟨hsame, -⟩ := sequencerStep_cases s
  · rw [hr] at h ⊢
    obtain ⟨hok, hop⟩ := sessionEffect_moves (by simpa using h)
    exact sessionCompleted_finish hok hop rfl rfl
  · exact absurd hsame.isOpen h

/-- No transfer moves `OPEN`. -/
theorem exec_transfer_isOpen (hb : s.busy = false) (hi : i.isTransfer = true)
    (hx : exec i s = .next u) : u.isOpen = s.isOpen := by
  cases i with
  | writeByte m t a v =>
    obtain ⟨w, hw, hopen, -⟩ := writeByteOutcome.2 s m t a v hb
    exact Host.Outcome.next.inj (hw.symm.trans hx) ▸ hopen
  | readByte m t a =>
    obtain ⟨w, hw, hopen, -⟩ := readByteOutcome.2 s m t a hb
    exact Host.Outcome.next.inj (hw.symm.trans hx) ▸ hopen
  | writeBurst m t a buf =>
    obtain ⟨w, hw, hopen, -⟩ := writeBurstOutcome.2 s m t a buf hb
    exact Host.Outcome.next.inj (hw.symm.trans hx) ▸ hopen
  | readBurst m t a n =>
    obtain ⟨w, hw, hopen, -⟩ := readBurstOutcome.2 s m t a n hb
    exact Host.Outcome.next.inj (hw.symm.trans hx) ▸ hopen
  | openBus | closeBus | encodeHeaderW | encodeHeaderR => cases hi

theorem exec_moves_open (hb : s.busy = false) (hx : exec i s = .next u)
    (h : u.isOpen ≠ s.isOpen) : SessionCompleted s u := by
  cases i with
  | openBus =>
    obtain rfl | rfl | rfl := exec_openBus_cases hb hx
    · simp at h
    · exact sessionCompleted_finish rfl rfl rfl rfl
    · simp at h
  | closeBus =>
    obtain rfl := exec_closeBus_next hb hx
    exact sessionCompleted_finish rfl rfl rfl rfl
  | writeByte | readByte | writeBurst | readBurst => exact absurd (exec_transfer_isOpen hb rfl hx) h
  | encodeHeaderW | encodeHeaderR => cases hx; exact absurd rfl h

/-- Settles O38: of the ways a step gives a next state, only the completion of a session command moves `OPEN`. -/
theorem onlySessionOperationsMoveOpen : Obligations.OnlySessionOperationsMoveOpen := by
  unfold Obligations.OnlySessionOperationsMoveOpen
  intro s u hstep h
  obtain ⟨-, rfl⟩ | ⟨-, -, rfl⟩ | ⟨hb, w, rest, i, -, -, ⟨-, haccept⟩ | ⟨-, hexec⟩⟩ :=
    step_cases hstep
  · exact sequencerStep_moves_open h
  · exact absurd rfl h
  · exact absurd (acceptStep_accepted (s := s.takeRequest) hb haccept).isOpen h
  · exact exec_moves_open (s := s.takeRequest) hb hexec h

end Sys2Proof.Machine
end

section
/-! Completion, statuses and the single-byte transfers (41_single_transfer.md R121, R122, R126; 60_exceptions.md R181, R190):
the statements `ResetIsClosedIdleAndSilent`, `TransactionIsOneEntryOfItsLength`, `StatusCodesAreDistinct`,
`RaiseEndsTheCommand`, `ClosedBlockStaysOffTheBus`, `SingleTransferFrame` and `WriteThenReadEchoes`. -/

namespace Sys2Proof.Machine

variable {s u : State} {i : Instr} {m t a v : Byte}

/-! ## Reset, transactions, statuses -/

/-- Settles O1: the reset values. -/
theorem resetIsClosedIdleAndSilent : Obligations.ResetIsClosedIdleAndSilent :=
  ⟨rfl, rfl, rfl, rfl, rfl, rfl⟩

/-- Settles O28: the answer is fitted to the length asked for. -/
theorem transactionIsOneEntryOfItsLength : Obligations.TransactionIsOneEntryOfItsLength :=
  ⟨fun _ _ _ => Env.answer_length, fun s tx n => ⟨_, State.busTxn_trace s tx n, rfl⟩⟩

/-- The status of a code. -/
def statusOfCode (c : BitVec 3) : Status :=
  if c = 0#3 then .ok
  else if c = 1#3 then .deviceUnavailable
  else if c = 2#3 then .invalidAddress
  else if c = 3#3 then .busIoError
  else if c = 4#3 then .partialBurstFailure
  else .notOpen

theorem statusOfCode_code (st : Status) : statusOfCode st.code = st := by
  cases st <;> rfl

/-- Settles O29: each status can be read back from its code. -/
theorem statusCodesAreDistinct : Obligations.StatusCodesAreDistinct :=
  ⟨⟨rfl, rfl, rfl, rfl, rfl, rfl⟩, fun _ _ h => Function.LeftInverse.injective statusOfCode_code h⟩

/-- Settles O24: what completion writes, and what `spoil` adds for an error. -/
theorem raiseEndsTheCommand : Obligations.RaiseEndsTheCommand := by
  unfold Obligations.RaiseEndsTheCommand
  intro s st k hst
  simp +contextual [hst, chunksOkOf, errorResponse]

/-! ## A closed block -/

theorem exec_transfer_closed (hb : s.busy = false) (ho : s.isOpen = false)
    (hi : i.isTransfer = true) : exec i s = .next ((s.latch i).raise .notOpen 0) := by
  cases i with
  | writeByte => exact exec_writeByte_closed hb ho
  | readByte => exact exec_readByte_closed hb ho
  | writeBurst _ _ _ buf => rw [exec_writeBurst hb, runBurst_closed (by exact ho)]
  | readBurst _ _ _ n => rw [exec_readBurst hb, runBurst_closed (by exact ho)]
  | openBus | closeBus | encodeHeaderW | encodeHeaderR => cases hi

/-- Settles O23: every transfer of a closed block latches its operands and raises `NotOpen`. -/
theorem closedBlockStaysOffTheBus : Obligations.ClosedBlockStaysOffTheBus := by
  unfold Obligations.ClosedBlockStaysOffTheBus
  intro s i hb ho hi
  exact ⟨_, exec_transfer_closed hb ho hi, by simp [ho, errorResponse, chunksOkOf]⟩

/-! ## The single-byte transfers -/

/-- The four ways WRITE_BYTE answers a next state (41_single_transfer.md R121). -/
theorem exec_writeByte_cases (hb : s.busy = false) (hx : exec (.writeByte m t a v) s = .next u) :
    (s.isOpen = false ∧ u = (s.latch (.writeByte m t a v)).raise .notOpen 0) ∨
    s.isOpen = true ∧
      (u = ((s.latch (.writeByte m t a v)).evalHeader m t a.toNat .write).raise
        .invalidAddress 0 ∨
      u = (((s.latch (.writeByte m t a v)).evalHeader m t a.toNat .write).busTxn
        ((encodeHeader s.cfg m t a.toNat .write).bytes ++ [v]) 0).raise .busIoError 0 ∨
      (¬(0x7F < a.toNat ∧ s.cfg.addrOverflow = .reject) ∧ s.env.answer 0 = .ok [] ∧
        u = (((s.latch (.writeByte m t a v)).evalHeader m t a.toNat .write).busTxn
          ((encodeHeader s.cfg m t a.toNat .write).bytes ++ [v]) 0).respond .absent)) := by
  cases ho : s.isOpen with
  | false =>
    rw [exec_writeByte_closed hb ho] at hx
    exact .inl ⟨rfl, (Host.Outcome.next.inj hx).symm⟩
  | true =>
    refine .inr ⟨rfl, ?_⟩
    by_cases ha : 0x7F < a.toNat ∧ s.cfg.addrOverflow = .reject
    · rw [exec_writeByte_rejected hb ho ha] at hx
      exact .inl (Host.Outcome.next.inj hx).symm
    · obtain hf | hk := Env.answer_zero s.env
      · rw [exec_writeByte_failed hb ho ha hf] at hx
        exact .inr (.inl (Host.Outcome.next.inj hx).symm)
      · rw [exec_writeByte_ok hb ho ha hk] at hx
        exact .inr (.inr ⟨ha, hk, (Host.Outcome.next.inj hx).symm⟩)

/-- The four ways READ_BYTE answers a next state (41_single_transfer.md R122). -/
theorem exec_readByte_cases (hb : s.busy = false) (hx : exec (.readByte m t a) s = .next u) :
    (s.isOpen = false ∧ u = (s.latch (.readByte m t a)).raise .notOpen 0) ∨
    s.isOpen = true ∧
      (u = ((s.latch (.readByte m t a)).evalHeader m t a.toNat .read).raise
        .invalidAddress 0 ∨
      u = (((s.latch (.readByte m t a)).evalHeader m t a.toNat .read).busTxn
        (encodeHeader s.cfg m t a.toNat .read).bytes 1).raise .busIoError 0 ∨
      ∃ b, u = ((((s.latch (.readByte m t a)).evalHeader m t a.toNat .read).busTxn
        (encodeHeader s.cfg m t a.toNat .read).bytes 1).setRdata b).respond (.byte b)) := by
  cases ho : s.isOpen with
  | false =>
    rw [exec_readByte_closed hb ho] at hx
    exact .inl ⟨rfl, (Host.Outcome.next.inj hx).symm⟩
  | true =>
    refine .inr ⟨rfl, ?_⟩
    by_cases ha : 0x7F < a.toNat ∧ s.cfg.addrOverflow = .reject
    · rw [exec_readByte_rejected hb ho ha] at hx
      exact .inl (Host.Outcome.next.inj hx).symm
    · obtain hf | ⟨b, hk⟩ := Env.answer_one s.env
      · rw [exec_readByte_failed hb ho ha hf] at hx
        exact .inr (.inl (Host.Outcome.next.inj hx).symm)
      · rw [exec_readByte_ok hb ho ha hk] at hx
        exact .inr (.inr ⟨b, (Host.Outcome.next.inj hx).symm⟩)

@[simp] theorem Env.afterAnswer_avails (e : Env) : e.afterAnswer.avails = e.avails := rfl

/-- Settles O30: a busy block is unchanged; else by the four cases of either command. -/
theorem singleTransferFrame : Obligations.SingleTransferFrame := by
  unfold Obligations.SingleTransferFrame
  intro s u m t a v i hi hx
  cases hb : s.busy with
  | true =>
    obtain rfl : s = u := by
      rw [exec_busy hb (by rcases hi with rfl | rfl <;> rfl)] at hx
      exact Host.Outcome.next.inj hx
    simp
  | false =>
    have hphase := State.busy_eq_false_iff.1 hb
    obtain rfl | rfl := hi
    · obtain ⟨ho, rfl⟩ | ⟨ho, rfl | rfl | ⟨-, -, rfl⟩⟩ := exec_writeByte_cases hb hx <;>
        simp [ho, hphase]
    · obtain ⟨ho, rfl⟩ | ⟨ho, rfl | rfl | ⟨b, rfl⟩⟩ := exec_readByte_cases hb hx <;>
        simp [ho, hphase]

/-! ## Loop-back over the fixture (41_single_transfer.md R126) -/

/-- The fixture holds the byte of the last `W1` frame to the address that was answered `Ok`. -/
theorem regfileValue_append_write {cfg : Params} {b2 : Byte} {e : TraceEntry}
    (htx : e.tx = [m, t, b2, v]) (hdir : byte2Dir b2 = cfg.dirWrite) (hok : e.answer.isOk = true)
    (tr : List TraceEntry) : regfileValue cfg m t (byte2Addr b2) (tr ++ [e]) = v := by
  simp [regfileValue, htx, hdir, hok]

/-- Settles O13: the write's frame, answered `Ok`, is the last of the trace, so the fixture holds its byte; the read of
the same address passes the same checks. -/
theorem writeThenReadEchoes : Obligations.WriteThenReadEchoes := by
  unfold Obligations.WriteThenReadEchoes
  intro s u m t a v hb hx hok hans
  obtain ⟨-, rfl⟩ | ⟨ho, rfl | rfl | ⟨ha, hk, hu⟩⟩ := exec_writeByte_cases hb hx
  · simp at hok
  · simp at hok
  · simp at hok
  have hecho : regfileValue s.cfg m t (BitVec.ofNat 7 a.toNat) u.trace = v := by
    have hheader := encodeHeader_eq_header (encodeHeader_valid ha m t .write)
    rw [← byte2Addr_headerByte2 (dirBit s.cfg.dirWrite .write) (BitVec.ofNat 7 a.toNat), hu]
    exact regfileValue_append_write (by simp [hheader, HeaderOut.bytes]) (by simp [dirBit])
      (by simp [hk, BusAnswer.isOk]) s.trace
  rw [hecho] at hans
  obtain ⟨w, hw, -, -, -, -, -, hread⟩ := readByteOutcome.2 u m t a (exec_leaves_idle hb hx)
  obtain ⟨hrdata, hdone⟩ := hread (by simpa [hu] using ho) (by simpa [hu] using ha) v hans
  exact ⟨w, hw, hrdata, hdone.responded⟩

end Sys2Proof.Machine
end

section
/-! Bursts (42_burst.md R143, R149; 60_exceptions.md R185): the five ways a burst ends as one case analysis, what the chunks'
entries carry, and the statements `BurstCheckCoversEveryChunk`, `WriteBurstReconstructsBuffer`,
`PartialBurstFailureCounts` and `BurstFrame`. -/

namespace Sys2Proof.Machine

variable {d : Direction} {m t a : Byte} {buf : List Byte} {n : Nat} {s u : State} {i : Instr}

/-! ## The check before the first chunk (42_burst.md R143) -/

/-- Settles O15: the addresses grow with the chunk's index, so the last chunk's header is the first to fail. -/
theorem burstCheckCoversEveryChunk : Obligations.BurstCheckCoversEveryChunk := by
  unfold Obligations.BurstCheckCoversEveryChunk
  intro cfg m t a n d hn
  refine ⟨fun h k hk => chunk_header_valid h hk m t d, fun h => ?_⟩
  have hlast := h (chunkCount cfg n - 1) (Nat.sub_lt (chunkCount_pos hn) Nat.one_pos)
  rw [Ne, encodeHeader_invalid_iff, and_comm] at hlast
  exact burstRejected_eq_false_iff.2 hlast

/-! ## How a burst ends -/

/-- A burst finds the block closed, has length 0, is rejected, has a chunk answered `Fail`, or has all answered `Ok`. -/
theorem burst_cases (cfg : Params) (e : Env) (d : Direction) (a : Byte) (n : Nat) (o : Bool) :
    o = false ∨ o = true ∧
      (n = 0 ∨ 0 < n ∧
        (burstRejected cfg a n = true ∨ burstRejected cfg a n = false ∧
          ((∃ j < chunkCount cfg n, chunksAnswered cfg e d n j ∧ chunkAnswer cfg e d n j = .fail) ∨
            chunksAnswered cfg e d n (chunkCount cfg n)))) := by
  cases o with
  | false => exact .inl rfl
  | true =>
    obtain hn | hn := Nat.eq_zero_or_pos n
    · exact .inr ⟨rfl, .inl hn⟩
    · cases hc : burstRejected cfg a n with
      | true => exact .inr ⟨rfl, .inr ⟨hn, .inl rfl⟩⟩
      | false =>
        exact .inr ⟨rfl, .inr ⟨hn, .inr ⟨rfl, (chunksAnswered_or_fail cfg e d n _).symm⟩⟩⟩

/-! ## What the chunks' entries carry -/

/-- An entry of a burst answered `Ok` moves the bytes of its chunk, out or in. -/
theorem chunkEntry_moves {cfg : Params} {e : Env} {k : Nat}
    (hc : burstRejected cfg a n = false) (hk : k < chunkCount cfg n)
    (hok : (chunkAnswer cfg e d n k).isOk = true) (hbuf : d = .write → n = buf.length) :
    (chunkEntry cfg e d m t a buf n k).data.length +
      (chunkEntry cfg e d m t a buf n k).answer.received.length = chunkLen cfg n k := by
  obtain ⟨rx, hrx⟩ := (BusAnswer.isOk_iff _).1 hok
  have hlen := chunkAnswer_length hrx
  rw [chunkEntry_data (chunk_header_valid hc hk m t d), chunkEntry, hrx, BusAnswer.received, hlen]
  cases d with
  | write =>
    rw [frameData, frameRxLen, Nat.add_zero, slice_length]
    rw [← hbuf rfl]
    exact chunkOff_add_len_le hk
  | read => simp [frameData, frameRxLen]

/-- The header of chunk `k`'s entry is that of its address mod 128 (30_encoding.md R83). -/
theorem chunkEntry_header {cfg : Params} {k : Nat}
    (hv : encodeHeader cfg m t (chunkAddr cfg a k) d ≠ .invalidAddress)
    (e : Env) (buf : List Byte) (n : Nat) :
    ∃ b2, (chunkEntry cfg e d m t a buf n k).tx.take 3 = [m, t, b2] ∧
      byte2Dir b2 = dirBit cfg.dirWrite d ∧
      (byte2Addr b2).toNat = (a.toNat + k * cfg.stride) % 128 :=
  ⟨headerByte2 (dirBit cfg.dirWrite d) (BitVec.ofNat 7 (a.toNat + k * cfg.stride)),
    by rw [chunkEntry, encodeHeader_eq_header hv]; rfl, byte2Dir_headerByte2 ..,
    by rw [byte2Addr_headerByte2, BitVec.toNat_ofNat]⟩

/-- Settles O18: the entries of all chunks, in order; the slices of the buffer make it up. -/
theorem writeBurstReconstructsBuffer : Obligations.WriteBurstReconstructsBuffer := by
  unfold Obligations.WriteBurstReconstructsBuffer
  intro s u m t a buf hb hx hok
  rw [exec_writeBurst hb] at hx
  cases hx
  have htrace := runBurst_ok_trace hok
  obtain ⟨-, hchecked, -⟩ := runBurst_lastStatus_ok hok
  simp only [State.latch_cfg, State.latch_env, State.latch_trace] at htrace hchecked
  have hv (k) (hk : k < chunkCount s.cfg buf.length) :
      encodeHeader s.cfg m t (chunkAddr s.cfg a k) .write ≠ .invalidAddress :=
    chunk_header_valid (hchecked (Nat.zero_lt_of_lt (lt_chunkCount_iff.1 hk))) hk m t .write
  refine ⟨_, htrace, chunkEntries_length .., ?_, fun k hk => ?_⟩
  · rw [chunkEntries_flatMap_data hv le_rfl,
      List.take_of_length_le (le_chunkOff_chunkCount s.cfg buf.length)]
  · rw [chunkEntries_length] at hk
    rw [chunkEntries_getElem]
    exact chunkEntry_header (hv k hk) s.env buf buf.length

/-! ## `PartialBurstFailure` (60_exceptions.md R185, D11) -/

/-- A burst reports `PartialBurstFailure` only when it passed its check and a chunk `j` was the first answered `Fail`. -/
theorem runBurst_partialBurstFailure
    (h : (runBurst d m t a buf n s).lastStatus = .partialBurstFailure) :
    burstRejected s.cfg a n = false ∧ ∃ j < chunkCount s.cfg n,
      chunksAnswered s.cfg s.env d n j ∧ chunkAnswer s.cfg s.env d n j = .fail ∧
      Completed s (runBurst d m t a buf n s) (chunkEntries s.cfg s.env d m t a buf n (j + 1))
        (errorResponse .partialBurstFailure j) := by
  obtain ho | ⟨ho, rfl | ⟨hn, hc | ⟨hc, ⟨j, hj, hbefore, hfail⟩ | hall⟩⟩⟩ :=
    burst_cases s.cfg s.env d a n s.isOpen
  · simp [runBurst_closed ho] at h
  · simp [runBurst_empty ho] at h
  · simp [runBurst_rejected ho hn hc] at h
  · obtain ⟨-, -, hdone⟩ := runBurst_fail_completed (m := m) (t := t) (buf := buf) ho hc hj
      hbefore hfail
    exact ⟨hc, j, hj, hbefore, hfail, hdone⟩
  · simp [runBurst_ok ho hn hc hall] at h

/-- The chunks before the failed one are full, for none of them is the last. -/
theorem runBurst_partialBurstFailure_counts (hbuf : d = .write → n = buf.length)
    (h : (runBurst d m t a buf n s).lastStatus = .partialBurstFailure) :
    ∃ es e, (runBurst d m t a buf n s).trace = s.trace ++ es ++ [e] ∧ e.answer = .fail ∧
      (∀ x ∈ es, x.answer.isOk = true ∧
        x.data.length + x.answer.received.length = s.cfg.chunkMax) ∧
      (runBurst d m t a buf n s).chunksOk = es.length ∧
      (runBurst d m t a buf n s).chunksOk < chunkCount s.cfg n := by
  obtain ⟨hc, j, hj, hbefore, hfail, hdone⟩ := runBurst_partialBurstFailure h
  have hcount : (runBurst d m t a buf n s).chunksOk = j := hdone.count
  refine ⟨chunkEntries s.cfg s.env d m t a buf n j, chunkEntry s.cfg s.env d m t a buf n j, ?_,
    hfail, fun x hx => ⟨chunkEntries_answered hbefore m t a buf x hx, ?_⟩, ?_, hcount ▸ hj⟩
  · rw [hdone.traced, chunkEntries_succ, List.append_assoc]
  · obtain ⟨k, hk, rfl⟩ := List.mem_map.1 hx
    have hkj := List.mem_range.1 hk
    rw [chunkEntry_moves hc (hkj.trans hj) (hbefore k hkj) hbuf,
      chunkLen_full (Nat.lt_of_le_of_lt hkj hj)]
  · rw [hcount, chunkEntries_length]

/-- Settles O20: both bursts run the same chunks on the latched operands. -/
theorem partialBurstFailureCounts : Obligations.PartialBurstFailureCounts := by
  unfold Obligations.PartialBurstFailureCounts
  rintro s u i m t a buf n hb (⟨rfl, rfl⟩ | rfl) hx hstatus
  · obtain rfl := Host.Outcome.next.inj ((exec_writeBurst hb buf).symm.trans hx)
    simpa using runBurst_partialBurstFailure_counts (fun _ => rfl) hstatus
  · obtain rfl := Host.Outcome.next.inj ((exec_readBurst hb n).symm.trans hx)
    simpa using runBurst_partialBurstFailure_counts (d := .read) nofun hstatus

/-! ## What a burst leaves unchanged -/

@[simp] theorem afterChunks_rdata (j : Nat) :
    (afterChunks d m t a buf n s j).rdata = s.rdata := by
  cases j <;> rfl

@[simp] theorem afterChunks_write_rbuf (j : Nat) :
    (afterChunks .write m t a buf n s j).rbuf = s.rbuf := by
  cases j <;> rfl

@[simp] theorem Env.after_avails (e : Env) (j : Nat) : (e.after j).avails = e.avails := rfl

/-- What `runBurst` leaves in the elements that a burst can write, by how it ends. -/
theorem runBurst_leaves (d : Direction) (m t a : Byte) (buf : List Byte) (n : Nat) (s : State) :
    (runBurst d m t a buf n s).env.avails = s.env.avails ∧
    ((runBurst d m t a buf n s).lastStatus = .ok →
      (runBurst d m t a buf n s).rdata = s.rdata ∧
        (d = .write → (runBurst d m t a buf n s).rbuf = s.rbuf)) ∧
    ((runBurst d m t a buf n s).lastStatus = .notOpen →
      (runBurst d m t a buf n s).rbuf = s.rbuf) ∧
    (s.isOpen = false ∨ n = 0 →
      (runBurst d m t a buf n s).k = s.k ∧ (runBurst d m t a buf n s).nch = s.nch ∧
        (runBurst d m t a buf n s).hdr = s.hdr ∧ (runBurst d m t a buf n s).trace = s.trace) ∧
    ((runBurst d m t a buf n s).lastStatus = .invalidAddress →
      (runBurst d m t a buf n s).k = s.k ∧ (runBurst d m t a buf n s).hdr = s.hdr ∧
        (runBurst d m t a buf n s).trace = s.trace) ∧
    ((runBurst d m t a buf n s).lastStatus = .invalidAddress →
      (runBurst d m t a buf n s).nch = chunkCount s.cfg n) := by
  obtain ho | ⟨ho, rfl | ⟨hn, hc | ⟨hc, ⟨j, hj, hbefore, hfail⟩ | hall⟩⟩⟩ :=
    burst_cases s.cfg s.env d a n s.isOpen
  · simp [runBurst_closed ho]
  · simp [runBurst_empty ho]
  · simp [runBurst_rejected ho hn hc, ho, hn.ne']
  · simp [runBurst_fail ho hc hj hbefore hfail, ho, hn.ne']
  · rw [runBurst_ok ho hn hc hall]
    cases d <;> simp [ho, hn.ne']

/-- Settles O31: a busy block is unchanged; an idle one latches the operands, which leaves `CMD_VAL` and, for a read,
`WBUF`, and runs the burst. -/
theorem burstFrame : Obligations.BurstFrame := by
  unfold Obligations.BurstFrame
  intro s u m t a buf n i hi hx
  have hcommand : i.isCommand = true ∧ i.isTransfer = true := by
    obtain ⟨rfl, -⟩ | rfl := hi <;> exact ⟨rfl, rfl⟩
  obtain ⟨hcommand, htransfer⟩ := hcommand
  cases hb : s.busy with
  | true =>
    obtain rfl := Host.Outcome.next.inj ((exec_busy hb hcommand).symm.trans hx)
    simp
  | false =>
    have happ := exec_appended hb hx
    have hopen := exec_transfer_isOpen hb htransfer hx
    have hphase : u.phase = s.phase :=
      (State.busy_eq_false_iff.1 (exec_leaves_idle hb hx)).trans (State.busy_eq_false_iff.1 hb).symm
    refine ⟨happ.cfg, hopen, hphase, happ.host, happ.stepwise, ?_⟩
    obtain ⟨rfl, rfl⟩ | rfl := hi
    · obtain rfl := Host.Outcome.next.inj ((exec_writeBurst hb buf).symm.trans hx)
      obtain ⟨-, hcmd, -⟩ := runBurst_frame .write m t a buf buf.length
        (s.latch (.writeBurst m t a buf))
      obtain ⟨havails, hok, hclosed, hearly, hinvalid, hnch⟩ := runBurst_leaves .write m t a buf
        buf.length (s.latch (.writeBurst m t a buf))
      exact ⟨havails, by rw [hcmd]; rfl, happ.trace,
        fun h => (hok h).imp_right fun hrbuf _ => hrbuf rfl, hclosed, nofun, hearly, hinvalid,
        fun _ => hnch⟩
    · obtain rfl := Host.Outcome.next.inj ((exec_readBurst hb n).symm.trans hx)
      obtain ⟨-, hcmd, hwbuf⟩ := runBurst_frame .read m t a [] n (s.latch (.readBurst m t a n))
      obtain ⟨havails, hok, hclosed, hearly, hinvalid, hnch⟩ := runBurst_leaves .read m t a [] n
        (s.latch (.readBurst m t a n))
      exact ⟨havails, by rw [hcmd]; rfl, happ.trace, fun h => (hok h).imp_right fun _ => nofun,
        hclosed, fun _ => hwbuf, hearly, hinvalid, fun _ => hnch⟩

end Sys2Proof.Machine
end

section
/-! What the outside sees of a command (10_state.md R35, R43, R44): its transactions, its response, `OPEN` and the
environment after it are determined by the configuration, `OPEN` and the environment before it; the statements
`EveryCommandGetsOneResponse` and `HiddenStateIsUnobservable`. -/

namespace Sys2Proof.Machine

variable {s : State} {o : Bool} {cfg : Params} {env : Env} {i : Instr} {m t a v : Byte}

/-- A command that began in `s` has completed in `u`, and this is what the outside sees of it. -/
structure Seen (s u : State) (es : List TraceEntry) (r : Response) (o : Bool) (env : Env) : Prop
    extends Completed s u es r where
  isOpen : u.isOpen = o
  env_eq : u.env = env

/-- Every idle block with this configuration, session and environment answers the command in the same way, with a legal
response. -/
def Determined (cfg : Params) (o : Bool) (env : Env) (i : Instr) : Prop :=
  ∃ es r o' env', r.wf ∧ ∀ s : State, s.busy = false → s.cfg = cfg → s.isOpen = o → s.env = env →
    ∃ u, exec i s = .next u ∧ Seen s u es r o' env'

namespace Determined

/-- A command that ends in an error after the transactions `es`. -/
theorem of_raise {st : Status} (hst : st ≠ .ok) (k : Nat) (es : List TraceEntry) (env' : Env)
    (h : ∀ s : State, s.busy = false → s.cfg = cfg → s.isOpen = o → s.env = env →
      ∃ w : State, exec i s = .next (w.raise st k) ∧ w.trace = s.trace ++ es ∧
        w.responses = s.responses ∧ w.isOpen = o ∧ w.env = env') : Determined cfg o env i := by
  refine ⟨es, errorResponse st k, o, { env' with draws := env'.draws + 1 }, errorResponse_wf st k,
    fun s hb hcfg ho henv => ?_⟩
  obtain ⟨w, hx, htrace, hresp, hopen, henv'⟩ := h s hb hcfg ho henv
  exact ⟨_, hx, { State.raise_completed htrace hresp st k with
    isOpen := by rw [State.raise_isOpen, hopen]
    env_eq := by rw [State.raise_env, if_neg hst, henv'] }⟩

/-- A command that succeeds after the transactions `es`. -/
theorem of_respond (data : RespData) (es : List TraceEntry) (o' : Bool) (env' : Env)
    (h : ∀ s : State, s.busy = false → s.cfg = cfg → s.isOpen = o → s.env = env →
      ∃ w : State, exec i s = .next (w.respond data) ∧ w.trace = s.trace ++ es ∧
        w.responses = s.responses ∧ w.isOpen = o' ∧ w.env = env') : Determined cfg o env i := by
  refine ⟨es, _, o', env', okResponse_wf data, fun s hb hcfg ho henv => ?_⟩
  obtain ⟨w, hx, htrace, hresp, hopen, henv'⟩ := h s hb hcfg ho henv
  exact ⟨_, hx, { State.respond_completed htrace hresp data with
    isOpen := by rw [State.respond_isOpen, hopen]
    env_eq := by rw [State.respond_env, henv'] }⟩

end Determined

/-! ## The session commands -/

theorem openBus_determined (cfg : Params) (o : Bool) (env : Env) :
    Determined cfg o env .openBus := by
  cases o with
  | true =>
    refine .of_raise (st := .deviceUnavailable) nofun 0 [] env fun s hb _ ho henv => ?_
    exact ⟨_, exec_openBus_already hb ho, by simp, by simp, ho, henv⟩
  | false =>
    cases ha : env.avail with
    | true =>
      refine .of_respond .absent [] true env.afterAvail ?_
      rintro s hb - ho rfl
      exact ⟨_, exec_openBus_available hb ho ha, by simp, by simp, rfl, rfl⟩
    | false =>
      refine .of_raise (st := .deviceUnavailable) nofun 0 [] env.afterAvail ?_
      rintro s hb - ho rfl
      exact ⟨_, exec_openBus_unavailable hb ho ha, by simp, by simp, ho, rfl⟩

theorem closeBus_determined (cfg : Params) (env : Env) : Determined cfg true env .closeBus :=
  .of_respond .absent [] false env fun _ hb _ ho henv =>
    ⟨_, exec_closeBus_open hb ho, by simp, by simp, rfl, henv⟩

/-! ## The single-byte transfers -/

theorem transfer_closed_determined (cfg : Params) (env : Env) (hi : i.isTransfer = true) :
    Determined cfg false env i :=
  .of_raise (st := .notOpen) nofun 0 [] env fun _ hb _ ho henv =>
    ⟨_, exec_transfer_closed hb ho hi, by simp, by simp, by simpa using ho, by simpa using henv⟩

theorem writeByte_determined (cfg : Params) (env : Env) (m t a v : Byte) :
    Determined cfg true env (.writeByte m t a v) := by
  by_cases ha : 0x7F < a.toNat ∧ cfg.addrOverflow = .reject
  · refine .of_raise (st := .invalidAddress) nofun 0 [] env ?_
    rintro s hb rfl ho rfl
    exact ⟨_, exec_writeByte_rejected hb ho ha, by simp, by simp, ho, rfl⟩
  · obtain hf | hk := Env.answer_zero env
    · refine .of_raise (st := .busIoError) nofun 0 [{
        tx := (encodeHeader cfg m t a.toNat .write).bytes ++ [v], rxLen := 0, answer := .fail }]
        env.afterAnswer ?_
      rintro s hb rfl ho rfl
      exact ⟨_, exec_writeByte_failed hb ho ha hf, by simp [hf], by simp, ho, rfl⟩
    · refine .of_respond .absent [{
        tx := (encodeHeader cfg m t a.toNat .write).bytes ++ [v], rxLen := 0, answer := .ok [] }]
        true env.afterAnswer ?_
      rintro s hb rfl ho rfl
      exact ⟨_, exec_writeByte_ok hb ho ha hk, by simp [hk], by simp, ho, rfl⟩

theorem readByte_determined (cfg : Params) (env : Env) (m t a : Byte) :
    Determined cfg true env (.readByte m t a) := by
  by_cases ha : 0x7F < a.toNat ∧ cfg.addrOverflow = .reject
  · refine .of_raise (st := .invalidAddress) nofun 0 [] env ?_
    rintro s hb rfl ho rfl
    exact ⟨_, exec_readByte_rejected hb ho ha, by simp, by simp, ho, rfl⟩
  · obtain hf | ⟨b, hk⟩ := Env.answer_one env
    · refine .of_raise (st := .busIoError) nofun 0 [{
        tx := (encodeHeader cfg m t a.toNat .read).bytes, rxLen := 1, answer := .fail }]
        env.afterAnswer ?_
      rintro s hb rfl ho rfl
      exact ⟨_, exec_readByte_failed hb ho ha hf, by simp [hf], by simp, ho, rfl⟩
    · refine .of_respond (.byte b) [{
        tx := (encodeHeader cfg m t a.toNat .read).bytes, rxLen := 1, answer := .ok [b] }]
        true env.afterAnswer ?_
      rintro s hb rfl ho rfl
      exact ⟨_, exec_readByte_ok hb ho ha hk, by simp [hk], by simp, ho, rfl⟩

/-! ## The bursts -/

/-- The burst of a direction: a write sends the buffer, a read asks for `n` bytes. -/
def burstInstr (m t a : Byte) (buf : List Byte) (n : Nat) : Direction → Instr
  | .write => .writeBurst m t a buf
  | .read => .readBurst m t a n

theorem exec_burst {d : Direction} {buf : List Byte} {n : Nat} (hb : s.busy = false)
    (hwrite : d = .write → n = buf.length) (hread : d = .read → buf = []) :
    exec (burstInstr m t a buf n d) s =
      .next (runBurst d m t a buf n (s.latch (burstInstr m t a buf n d))) := by
  cases d with
  | write => rw [hwrite rfl]; exact exec_writeBurst hb buf
  | read => rw [hread rfl]; exact exec_readBurst hb n

@[simp] theorem afterChunks_isOpen {d : Direction} {buf : List Byte} {n : Nat} (j : Nat) :
    (afterChunks d m t a buf n s j).isOpen = s.isOpen := by
  cases j <;> rfl

/-- The data of a burst's `Ok` response: the bytes a read received, nothing for a write (30_encoding.md R93). -/
def delivered : Direction → List Byte → RespData
  | .write, _ => .absent
  | .read, bytes => .buffer bytes

theorem runBurst_empty_delivered (ho : s.isOpen = true) (d : Direction) (buf : List Byte) :
    runBurst d m t a buf 0 s = s.respond (delivered d []) := by
  rw [runBurst_empty ho]
  cases d <;> rfl

theorem runBurst_ok_delivered {d : Direction} {buf : List Byte} {n : Nat} (ho : s.isOpen = true)
    (hn : 0 < n) (hc : burstRejected s.cfg a n = false)
    (hall : chunksAnswered s.cfg s.env d n (chunkCount s.cfg n)) :
    runBurst d m t a buf n s =
      (afterChunks d m t a buf n ((s.setNch (chunkCount s.cfg n)).setK 0)
        (chunkCount s.cfg n)).respond
        (delivered d (chunksReceived s.cfg s.env .read n (chunkCount s.cfg n))) := by
  rw [runBurst_ok ho hn hc hall]
  cases d <;> rfl

/-- Every end of a burst is one state of `runBurst`, which reads the latched operands only as it is given them. -/
theorem burst_determined {d : Direction} {buf : List Byte} {n : Nat} (cfg : Params) (env : Env)
    (hwrite : d = .write → n = buf.length) (hread : d = .read → buf = []) :
    Determined cfg true env (burstInstr m t a buf n d) := by
  obtain ho | ⟨-, hn | ⟨hn, hc | ⟨hc, ⟨j, hj, hbefore, hfail⟩ | hall⟩⟩⟩ :=
    burst_cases cfg env d a n true
  · cases ho
  · subst hn
    refine .of_respond (delivered d []) [] true env fun s hb _ ho henv => ?_
    rw [exec_burst hb hwrite hread, runBurst_empty_delivered (by simpa using ho)]
    exact ⟨_, rfl, by simp, by simp, by simpa using ho, by simpa using henv⟩
  · refine .of_raise (st := .invalidAddress) nofun 0 [] env ?_
    rintro s hb rfl ho rfl
    rw [exec_burst hb hwrite hread, runBurst_rejected (by simpa using ho) hn (by simpa using hc)]
    exact ⟨_, rfl, by simp, by simp, by simpa using ho, by simp⟩
  · refine .of_raise (st := .partialBurstFailure) nofun j
      (chunkEntries cfg env d m t a buf n (j + 1)) (env.after (j + 1)) ?_
    rintro s hb rfl ho rfl
    rw [exec_burst hb hwrite hread, runBurst_fail (j := j) (by simpa using ho) (by simpa using hc)
      (by simpa using hj) (by simpa using hbefore) (by simpa using hfail)]
    exact ⟨_, rfl, by simp, by simp, by simpa using ho, by simp⟩
  · refine .of_respond (delivered d (chunksReceived cfg env .read n (chunkCount cfg n)))
      (chunkEntries cfg env d m t a buf n (chunkCount cfg n)) true (env.after (chunkCount cfg n)) ?_
    rintro s hb rfl ho rfl
    rw [exec_burst hb hwrite hread, runBurst_ok_delivered (by simpa using ho) hn (by simpa using hc)
      (by simpa using hall), State.latch_cfg, State.latch_env]
    exact ⟨_, rfl, by simp, by simp, by simpa using ho, by simp⟩

/-! ## The statements -/

/-- Of a command that has a result the outside sees what the configuration, `OPEN` and the environment determine. -/
theorem command_determined (hi : i.isCommand = true) (hc : ¬(i = .closeBus ∧ o = false))
    (cfg : Params) (env : Env) : Determined cfg o env i := by
  cases o with
  | false =>
    cases i with
    | openBus => exact openBus_determined cfg false env
    | closeBus => exact absurd ⟨rfl, rfl⟩ hc
    | writeByte | readByte | writeBurst | readBurst => exact transfer_closed_determined cfg env rfl
    | encodeHeaderW | encodeHeaderR => cases hi
  | true =>
    cases i with
    | openBus => exact openBus_determined cfg true env
    | closeBus => exact closeBus_determined cfg env
    | writeByte m t a v => exact writeByte_determined cfg env m t a v
    | readByte m t a => exact readByte_determined cfg env m t a
    | writeBurst m t a buf => exact burst_determined (d := .write) cfg env (fun _ => rfl) nofun
    | readBurst m t a n => exact burst_determined (d := .read) cfg env nofun fun _ => rfl
    | encodeHeaderW | encodeHeaderR => cases hi

/-- Settles O25: the command completes as the state it began in determines. -/
theorem everyCommandGetsOneResponse : Obligations.EveryCommandGetsOneResponse := by
  unfold Obligations.EveryCommandGetsOneResponse
  intro s i hb hi hc
  obtain ⟨es, r, o', env', hr, hseen⟩ := command_determined hi hc s.cfg s.env
  obtain ⟨u, hx, hu⟩ := hseen s hb rfl rfl rfl
  exact ⟨u, r, hx, hu.responded, hr, hu.status, hu.count, hu.ready⟩

/-- Settles O41: the two states agree on all that determines what is seen. -/
theorem hiddenStateIsUnobservable : Obligations.HiddenStateIsUnobservable := by
  unfold Obligations.HiddenStateIsUnobservable
  intro s s' i hb hb' hcfg ho henv hi hc
  obtain ⟨es, r, o', env', -, hseen⟩ := command_determined hi hc s.cfg s.env
  obtain ⟨u, hx, hu⟩ := hseen s hb rfl rfl rfl
  obtain ⟨u', hx', hu'⟩ := hseen s' hb' hcfg.symm ho.symm henv.symm
  exact ⟨u, u', es, r, hx, hx', hu.traced, hu'.traced, hu.responded, hu'.responded,
    hu.isOpen.trans hu'.isOpen.symm, hu.env_eq.trans hu'.env_eq.symm⟩

end Sys2Proof.Machine
end
